-- ==== Sys2Proof/Word.lean ====
section
/-! DEFINITION. The widths of the values the front end handles (spec/00_scope.md R6, R8).

Every value is an unsigned bit vector of a stated width and bit 0 is the least significant. The
slice `v[hi:lo]` of R7 is written `v.extractLsb' lo (hi - lo + 1)`: first bit, then width. The
concatenation `{a, b}` of R8, with `a` in the high bits, is `a ++ b`. -/

namespace Sys2Proof

/-- A raw instruction word, a register value, the pc, an immediate: 32 bits (R6: ILEN, W, IMMW). -/
abbrev Word := BitVec 32

/-- One byte of an instruction source (R50). -/
abbrev Byte := BitVec 8

/-- The low seven bits of a word (R6: OPW). -/
abbrev Opcode := BitVec 7

/-- R6: F3W. -/
abbrev Funct3 := BitVec 3

/-- R6: F7W. -/
abbrev Funct7 := BitVec 7

/-- A register index, 0 to 31 (R6: RIW, N). -/
abbrev RegIndex := BitVec 5

end Sys2Proof
end

