-- ==== Sys2Proof/Config.lean ====
section
/-! DEFINITION. What the spec leaves to the platform and the model fixes.

The parameters of spec/00_scope.md R6 that are marked OPEN (IMEM, IMEM_SIZE, HAS_SOURCE) are data in
State, at any value. Nothing in the front end has an undefined result, so there is no free value
here (spec/93_implementation_defined.md, end of section 1). -/

namespace Sys2Proof

/-- What an address of a byte sequence reads as when the canonical list of cells does not list it.
Any image can be written down whatever this byte is (DESIGN CHOICE, log 4). -/
def Config.unlistedByte : Byte := 0x00#8

end Sys2Proof
end

