-- ==== Sys2Proof/Syntax.lean ====
section
/-! DEFINITION. The classes of word the decoder tells apart, one constructor per row of
spec/opcode_table.json (spec/43_opcode_classes.md R211 to R225).

A constructor carries the bits of the word that its opcode does not fix, grouped as the class's
format groups them (spec/30_encoding.md R83 to R88). So every 32-bit word is exactly one
instruction, and nothing of a word is lost. -/

namespace Sys2Proof

/-- One instruction: the class of a word with its operand bits. -/
inductive Instr where
  /-- LUI, U format (R211): `imm` is imm[31:12]. -/
  | lui (rd : RegIndex) (imm : BitVec 20)
  /-- AUIPC, U format (R212): `imm` is imm[31:12]. -/
  | auipc (rd : RegIndex) (imm : BitVec 20)
  /-- JAL, J format (R213): `imm` is imm[20:1]. -/
  | jal (rd : RegIndex) (imm : BitVec 20)
  /-- JALR, I format (R214): `imm` is imm[11:0]. -/
  | jalr (rd : RegIndex) (funct3 : Funct3) (rs1 : RegIndex) (imm : BitVec 12)
  /-- Loads, I format (R215): `imm` is imm[11:0]. -/
  | load (rd : RegIndex) (funct3 : Funct3) (rs1 : RegIndex) (imm : BitVec 12)
  /-- Branches, B format (R216): `imm` is imm[12:1]. -/
  | branch (funct3 : Funct3) (rs1 rs2 : RegIndex) (imm : BitVec 12)
  /-- Stores, S format (R217): `imm` is imm[11:0]. -/
  | store (funct3 : Funct3) (rs1 rs2 : RegIndex) (imm : BitVec 12)
  /-- ALU-immediate, opcode 0010011 (R218): `hi` is instr[31:20], which is no immediate output. -/
  | opImm (rd : RegIndex) (funct3 : Funct3) (rs1 : RegIndex) (hi : BitVec 12)
  /-- Register-register, opcode 0110011, any function codes but SUB's (R219). -/
  | op (funct7 : Funct7) (rs2 rs1 : RegIndex) (funct3 : Funct3) (rd : RegIndex)
  /-- The register-register word with funct7 0100000 and funct3 000 (R220). -/
  | sub (rs2 rs1 rd : RegIndex)
  /-- The unnamed opcode 0000111 (R221). -/
  | opc0000111 (funct7 : Funct7) (rs2 rs1 : RegIndex) (funct3 : Funct3) (rd : RegIndex)
  /-- The unnamed opcode 0001011 (R221). -/
  | opc0001011 (funct7 : Funct7) (rs2 rs1 : RegIndex) (funct3 : Funct3) (rd : RegIndex)
  /-- The unnamed opcode 0001111 (R221). -/
  | opc0001111 (funct7 : Funct7) (rs2 rs1 : RegIndex) (funct3 : Funct3) (rd : RegIndex)
  /-- The unnamed opcode 0011011 (R221). -/
  | opc0011011 (funct7 : Funct7) (rs2 rs1 : RegIndex) (funct3 : Funct3) (rd : RegIndex)
  /-- The unnamed opcode 0100111 (R221). -/
  | opc0100111 (funct7 : Funct7) (rs2 rs1 : RegIndex) (funct3 : Funct3) (rd : RegIndex)
  /-- The unnamed opcode 0101011 (R221). -/
  | opc0101011 (funct7 : Funct7) (rs2 rs1 : RegIndex) (funct3 : Funct3) (rd : RegIndex)
  /-- The unnamed opcode 0101111 (R221). -/
  | opc0101111 (funct7 : Funct7) (rs2 rs1 : RegIndex) (funct3 : Funct3) (rd : RegIndex)
  /-- The unnamed opcode 0111011 (R221). -/
  | opc0111011 (funct7 : Funct7) (rs2 rs1 : RegIndex) (funct3 : Funct3) (rd : RegIndex)
  /-- The unnamed opcode 1000011 (R221). -/
  | opc1000011 (funct7 : Funct7) (rs2 rs1 : RegIndex) (funct3 : Funct3) (rd : RegIndex)
  /-- The unnamed opcode 1000111 (R221). -/
  | opc1000111 (funct7 : Funct7) (rs2 rs1 : RegIndex) (funct3 : Funct3) (rd : RegIndex)
  /-- The unnamed opcode 1001011 (R221). -/
  | opc1001011 (funct7 : Funct7) (rs2 rs1 : RegIndex) (funct3 : Funct3) (rd : RegIndex)
  /-- The unnamed opcode 1001111 (R221). -/
  | opc1001111 (funct7 : Funct7) (rs2 rs1 : RegIndex) (funct3 : Funct3) (rd : RegIndex)
  /-- The unnamed opcode 1010011 (R221). -/
  | opc1010011 (funct7 : Funct7) (rs2 rs1 : RegIndex) (funct3 : Funct3) (rd : RegIndex)
  /-- The unnamed opcode 1010111 (R221). -/
  | opc1010111 (funct7 : Funct7) (rs2 rs1 : RegIndex) (funct3 : Funct3) (rd : RegIndex)
  /-- The unnamed opcode 1011011 (R221). -/
  | opc1011011 (funct7 : Funct7) (rs2 rs1 : RegIndex) (funct3 : Funct3) (rd : RegIndex)
  /-- The unnamed opcode 1101011 (R221). -/
  | opc1101011 (funct7 : Funct7) (rs2 rs1 : RegIndex) (funct3 : Funct3) (rd : RegIndex)
  /-- The unnamed opcode 1110011 (R221). -/
  | opc1110011 (funct7 : Funct7) (rs2 rs1 : RegIndex) (funct3 : Funct3) (rd : RegIndex)
  /-- The unnamed opcode 1110111 (R221). -/
  | opc1110111 (funct7 : Funct7) (rs2 rs1 : RegIndex) (funct3 : Funct3) (rd : RegIndex)
  /-- The unnamed opcode 1111011 (R221). -/
  | opc1111011 (funct7 : Funct7) (rs2 rs1 : RegIndex) (funct3 : Funct3) (rd : RegIndex)
  /-- instr[1:0] = 00 (R222): `rest` is instr[31:2]. -/
  | not32Low00 (rest : BitVec 30)
  /-- instr[1:0] = 01 (R223): `rest` is instr[31:2]. -/
  | not32Low01 (rest : BitVec 30)
  /-- instr[1:0] = 10 (R224): `rest` is instr[31:2]. -/
  | not32Low10 (rest : BitVec 30)
  /-- instr[4:0] = 11111 (R225): `rest` is instr[31:5]. -/
  | not32Long (rest : BitVec 27)
  deriving DecidableEq, Repr

end Sys2Proof
end

