-- ==== Sys2Proof/WellFormed.lean ====
section
/-! DEFINITION. Which instructions some word decodes to.

The widths of the operands do all the checking but one: SUB's row of the opcode table is a
refinement of OP's (spec/43_opcode_classes.md R220, log 6). -/

namespace Sys2Proof

/-- An instruction is well-formed when a word decodes to it. An `op` that carries SUB's function
codes is the one term no word decodes to: that word is `sub`. -/
def Instr.wf : Instr → Bool
  | .op funct7 _ _ funct3 _ => !(funct7 == 0b0100000#7 && funct3 == 0b000#3)
  | _ => true

end Sys2Proof
end

