-- ==== Sys2Proof/Decode.lean ====
section
/-! DEFINITION. The decoder, the encoder and the opcode table (spec/30_encoding.md,
spec/opcode_table.json).

`decodeWord` names the class of a word and groups its operand bits; what the block outputs for a
class is the machine's business (Machine/). `encode` goes back, through the encoders of R105. -/

namespace Sys2Proof

/-! ## From a word to an instruction -/

/-- The class of a word and its operands (R96: every value of instr[6:0] falls in exactly one
class; R83 to R88 for the operand bits). Total: all 2^32 words are legal inputs (R140). After the
28 opcodes of 32-bit format are taken, a word with low bits 11 has bits [4:2] = 111 (R81). -/
def decodeWord (w : Word) : Instr :=
  let rd : RegIndex := w.extractLsb' 7 5
  let funct3 : Funct3 := w.extractLsb' 12 3
  let rs1 : RegIndex := w.extractLsb' 15 5
  let rs2 : RegIndex := w.extractLsb' 20 5
  let funct7 : Funct7 := w.extractLsb' 25 7
  match w.extractLsb' 0 7 with
  | 0b0110111#7 => .lui rd (w.extractLsb' 12 20)
  | 0b0010111#7 => .auipc rd (w.extractLsb' 12 20)
  | 0b1101111#7 =>
    .jal rd (w.extractLsb' 31 1 ++ w.extractLsb' 12 8 ++ w.extractLsb' 20 1 ++ w.extractLsb' 21 10)
  | 0b1100111#7 => .jalr rd funct3 rs1 (w.extractLsb' 20 12)
  | 0b0000011#7 => .load rd funct3 rs1 (w.extractLsb' 20 12)
  | 0b1100011#7 =>
    .branch funct3 rs1 rs2
      (w.extractLsb' 31 1 ++ w.extractLsb' 7 1 ++ w.extractLsb' 25 6 ++ w.extractLsb' 8 4)
  | 0b0100011#7 => .store funct3 rs1 rs2 (w.extractLsb' 25 7 ++ w.extractLsb' 7 5)
  | 0b0010011#7 => .opImm rd funct3 rs1 (w.extractLsb' 20 12)
  | 0b0110011#7 =>
    if funct7 = 0b0100000#7 ∧ funct3 = 0b000#3 then .sub rs2 rs1 rd
    else .op funct7 rs2 rs1 funct3 rd
  | 0b0000111#7 => .opc0000111 funct7 rs2 rs1 funct3 rd
  | 0b0001011#7 => .opc0001011 funct7 rs2 rs1 funct3 rd
  | 0b0001111#7 => .opc0001111 funct7 rs2 rs1 funct3 rd
  | 0b0011011#7 => .opc0011011 funct7 rs2 rs1 funct3 rd
  | 0b0100111#7 => .opc0100111 funct7 rs2 rs1 funct3 rd
  | 0b0101011#7 => .opc0101011 funct7 rs2 rs1 funct3 rd
  | 0b0101111#7 => .opc0101111 funct7 rs2 rs1 funct3 rd
  | 0b0111011#7 => .opc0111011 funct7 rs2 rs1 funct3 rd
  | 0b1000011#7 => .opc1000011 funct7 rs2 rs1 funct3 rd
  | 0b1000111#7 => .opc1000111 funct7 rs2 rs1 funct3 rd
  | 0b1001011#7 => .opc1001011 funct7 rs2 rs1 funct3 rd
  | 0b1001111#7 => .opc1001111 funct7 rs2 rs1 funct3 rd
  | 0b1010011#7 => .opc1010011 funct7 rs2 rs1 funct3 rd
  | 0b1010111#7 => .opc1010111 funct7 rs2 rs1 funct3 rd
  | 0b1011011#7 => .opc1011011 funct7 rs2 rs1 funct3 rd
  | 0b1101011#7 => .opc1101011 funct7 rs2 rs1 funct3 rd
  | 0b1110011#7 => .opc1110011 funct7 rs2 rs1 funct3 rd
  | 0b1110111#7 => .opc1110111 funct7 rs2 rs1 funct3 rd
  | 0b1111011#7 => .opc1111011 funct7 rs2 rs1 funct3 rd
  | _ =>
    match w.extractLsb' 0 2 with
    | 0b00#2 => .not32Low00 (w.extractLsb' 2 30)
    | 0b01#2 => .not32Low01 (w.extractLsb' 2 30)
    | 0b10#2 => .not32Low10 (w.extractLsb' 2 30)
    | _ => .not32Long (w.extractLsb' 5 27)

/-! ## From an instruction to its word: the encoders of R105

A bit of `imm` that the format does not encode is dropped. -/

/-- `enc_R`: the six fixed fields tile the word (R82). -/
def encR (funct7 : Funct7) (rs2 rs1 : RegIndex) (funct3 : Funct3) (rd : RegIndex)
    (opcode : Opcode) : Word :=
  funct7 ++ rs2 ++ rs1 ++ funct3 ++ rd ++ opcode

/-- `enc_I`. -/
def encI (imm : Word) (rs1 : RegIndex) (funct3 : Funct3) (rd : RegIndex) (opcode : Opcode) : Word :=
  imm.extractLsb' 0 12 ++ rs1 ++ funct3 ++ rd ++ opcode

/-- `enc_S`. -/
def encS (imm : Word) (rs2 rs1 : RegIndex) (funct3 : Funct3) (opcode : Opcode) : Word :=
  imm.extractLsb' 5 7 ++ rs2 ++ rs1 ++ funct3 ++ imm.extractLsb' 0 5 ++ opcode

/-- `enc_B`. -/
def encB (imm : Word) (rs2 rs1 : RegIndex) (funct3 : Funct3) (opcode : Opcode) : Word :=
  imm.extractLsb' 12 1 ++ imm.extractLsb' 5 6 ++ rs2 ++ rs1 ++ funct3 ++ imm.extractLsb' 1 4
    ++ imm.extractLsb' 11 1 ++ opcode

/-- `enc_U`. -/
def encU (imm : Word) (rd : RegIndex) (opcode : Opcode) : Word :=
  imm.extractLsb' 12 20 ++ rd ++ opcode

/-- `enc_J`. -/
def encJ (imm : Word) (rd : RegIndex) (opcode : Opcode) : Word :=
  imm.extractLsb' 20 1 ++ imm.extractLsb' 1 10 ++ imm.extractLsb' 11 1 ++ imm.extractLsb' 12 8
    ++ rd ++ opcode

/-- imm[31:0] of the U format from imm[31:12] (R87: imm[11:0] is not encoded and is 0). -/
def widenU (imm : BitVec 20) : Word := imm ++ 0#12

/-- imm[31:0] of the J format from imm[20:1] (R88: imm[0] is not encoded and is 0). -/
def widenJ (imm : BitVec 20) : Word := 0#11 ++ imm ++ 0#1

/-- imm[31:0] of the B format from imm[12:1] (R86: imm[0] is not encoded and is 0). -/
def widenB (imm : BitVec 12) : Word := 0#19 ++ imm ++ 0#1

/-- imm[31:0] of the I and S formats from imm[11:0], zeros above (R91, R93). -/
def widen12 (imm : BitVec 12) : Word := 0#20 ++ imm

/-- The word of an instruction. -/
def encode : Instr → Word
  | .lui rd imm => encU (widenU imm) rd 0b0110111#7
  | .auipc rd imm => encU (widenU imm) rd 0b0010111#7
  | .jal rd imm => encJ (widenJ imm) rd 0b1101111#7
  | .jalr rd funct3 rs1 imm => encI (widen12 imm) rs1 funct3 rd 0b1100111#7
  | .load rd funct3 rs1 imm => encI (widen12 imm) rs1 funct3 rd 0b0000011#7
  | .branch funct3 rs1 rs2 imm => encB (widenB imm) rs2 rs1 funct3 0b1100011#7
  | .store funct3 rs1 rs2 imm => encS (widen12 imm) rs2 rs1 funct3 0b0100011#7
  | .opImm rd funct3 rs1 hi => encI (widen12 hi) rs1 funct3 rd 0b0010011#7
  | .op funct7 rs2 rs1 funct3 rd => encR funct7 rs2 rs1 funct3 rd 0b0110011#7
  | .sub rs2 rs1 rd => encR 0b0100000#7 rs2 rs1 0b000#3 rd 0b0110011#7
  | .opc0000111 funct7 rs2 rs1 funct3 rd => encR funct7 rs2 rs1 funct3 rd 0b0000111#7
  | .opc0001011 funct7 rs2 rs1 funct3 rd => encR funct7 rs2 rs1 funct3 rd 0b0001011#7
  | .opc0001111 funct7 rs2 rs1 funct3 rd => encR funct7 rs2 rs1 funct3 rd 0b0001111#7
  | .opc0011011 funct7 rs2 rs1 funct3 rd => encR funct7 rs2 rs1 funct3 rd 0b0011011#7
  | .opc0100111 funct7 rs2 rs1 funct3 rd => encR funct7 rs2 rs1 funct3 rd 0b0100111#7
  | .opc0101011 funct7 rs2 rs1 funct3 rd => encR funct7 rs2 rs1 funct3 rd 0b0101011#7
  | .opc0101111 funct7 rs2 rs1 funct3 rd => encR funct7 rs2 rs1 funct3 rd 0b0101111#7
  | .opc0111011 funct7 rs2 rs1 funct3 rd => encR funct7 rs2 rs1 funct3 rd 0b0111011#7
  | .opc1000011 funct7 rs2 rs1 funct3 rd => encR funct7 rs2 rs1 funct3 rd 0b1000011#7
  | .opc1000111 funct7 rs2 rs1 funct3 rd => encR funct7 rs2 rs1 funct3 rd 0b1000111#7
  | .opc1001011 funct7 rs2 rs1 funct3 rd => encR funct7 rs2 rs1 funct3 rd 0b1001011#7
  | .opc1001111 funct7 rs2 rs1 funct3 rd => encR funct7 rs2 rs1 funct3 rd 0b1001111#7
  | .opc1010011 funct7 rs2 rs1 funct3 rd => encR funct7 rs2 rs1 funct3 rd 0b1010011#7
  | .opc1010111 funct7 rs2 rs1 funct3 rd => encR funct7 rs2 rs1 funct3 rd 0b1010111#7
  | .opc1011011 funct7 rs2 rs1 funct3 rd => encR funct7 rs2 rs1 funct3 rd 0b1011011#7
  | .opc1101011 funct7 rs2 rs1 funct3 rd => encR funct7 rs2 rs1 funct3 rd 0b1101011#7
  | .opc1110011 funct7 rs2 rs1 funct3 rd => encR funct7 rs2 rs1 funct3 rd 0b1110011#7
  | .opc1110111 funct7 rs2 rs1 funct3 rd => encR funct7 rs2 rs1 funct3 rd 0b1110111#7
  | .opc1111011 funct7 rs2 rs1 funct3 rd => encR funct7 rs2 rs1 funct3 rd 0b1111011#7
  | .not32Low00 rest => rest ++ 0b00#2
  | .not32Low01 rest => rest ++ 0b01#2
  | .not32Low10 rest => rest ++ 0b10#2
  | .not32Long rest => rest ++ 0b11111#5

/-! ## Bytes -/

/-- Four bytes as a word, the first byte in the low bits: `{b3, b2, b1, b0}` (R54, R121). -/
def wordOfBytes (b0 b1 b2 b3 : Byte) : Word := b3 ++ b2 ++ b1 ++ b0

/-- A word as the four bytes the instruction source stores, lowest address first (R54). -/
def bytesOfWord (w : Word) : List Byte :=
  [w.extractLsb' 0 8, w.extractLsb' 8 8, w.extractLsb' 16 8, w.extractLsb' 24 8]

/-- Why bytes give no instruction. -/
inductive DecodeReject where
  /-- Fewer than the four bytes of one word are left (R56, R57: no partial word). -/
  | shortRead (left : Nat)
  deriving DecidableEq, Repr

/-- Reads one instruction off a list of bytes and answers what is left of the list. Four bytes are
always an instruction (R140). -/
def decode : List Byte → Except DecodeReject (Instr × List Byte)
  | b0 :: b1 :: b2 :: b3 :: rest => .ok (decodeWord (wordOfBytes b0 b1 b2 b3), rest)
  | short => .error (.shortRead short.length)

/-- The low `nbits` bits of `w` as a 32-bit word, zeros above: how the opcode table numbers an
instruction's bits. -/
def tableWord (nbits w : Nat) : Word := BitVec.ofNat 32 (w % 2 ^ nbits)

/-- What the decoder reads from an instruction whose bits are `w`, numbered as
spec/opcode_table.json numbers them. -/
def decodeTableWord (nbits w : Nat) : Option Instr :=
  match decode (bytesOfWord (tableWord nbits w)) with
  | .ok (i, _) => some i
  | .error _ => none

/-! ## The opcode table -/

/-- One row of spec/opcode_table.json: a word is of the row when its bits under `mask` are
`pattern` (the row's "match"). -/
structure Row where
  mnemonic : String
  mask : Word
  pattern : Word
  deriving DecidableEq, Repr

/-- A word is of a row. -/
def Row.fits (r : Row) (w : Word) : Bool := w &&& r.mask == r.pattern

/-- The rows of 32-bit format that RVS names (R211 to R220). -/
def namedRows : List Row :=
  [⟨"LUI", 0x0000007F, 0x00000037⟩, ⟨"AUIPC", 0x0000007F, 0x00000017⟩,
   ⟨"JAL", 0x0000007F, 0x0000006F⟩, ⟨"JALR", 0x0000007F, 0x00000067⟩,
   ⟨"LOAD", 0x0000007F, 0x00000003⟩, ⟨"BRANCH", 0x0000007F, 0x00000063⟩,
   ⟨"STORE", 0x0000007F, 0x00000023⟩, ⟨"OP_IMM", 0x0000007F, 0x00000013⟩,
   ⟨"OP", 0x0000007F, 0x00000033⟩, ⟨"SUB", 0xFE00707F, 0x40000033⟩]

/-- The rows of the 19 unnamed opcodes (R221). -/
def unnamedRows : List Row :=
  [⟨"OPC_0000111", 0x0000007F, 0x00000007⟩, ⟨"OPC_0001011", 0x0000007F, 0x0000000B⟩,
   ⟨"OPC_0001111", 0x0000007F, 0x0000000F⟩, ⟨"OPC_0011011", 0x0000007F, 0x0000001B⟩,
   ⟨"OPC_0100111", 0x0000007F, 0x00000027⟩, ⟨"OPC_0101011", 0x0000007F, 0x0000002B⟩,
   ⟨"OPC_0101111", 0x0000007F, 0x0000002F⟩, ⟨"OPC_0111011", 0x0000007F, 0x0000003B⟩,
   ⟨"OPC_1000011", 0x0000007F, 0x00000043⟩, ⟨"OPC_1000111", 0x0000007F, 0x00000047⟩,
   ⟨"OPC_1001011", 0x0000007F, 0x0000004B⟩, ⟨"OPC_1001111", 0x0000007F, 0x0000004F⟩,
   ⟨"OPC_1010011", 0x0000007F, 0x00000053⟩, ⟨"OPC_1010111", 0x0000007F, 0x00000057⟩,
   ⟨"OPC_1011011", 0x0000007F, 0x0000005B⟩, ⟨"OPC_1101011", 0x0000007F, 0x0000006B⟩,
   ⟨"OPC_1110011", 0x0000007F, 0x00000073⟩, ⟨"OPC_1110111", 0x0000007F, 0x00000077⟩,
   ⟨"OPC_1111011", 0x0000007F, 0x0000007B⟩]

/-- The rows that are not of 32-bit format (R222 to R225). -/
def not32Rows : List Row :=
  [⟨"NOT32_LOW00", 0x00000003, 0x00000000⟩, ⟨"NOT32_LOW01", 0x00000003, 0x00000001⟩,
   ⟨"NOT32_LOW10", 0x00000003, 0x00000002⟩, ⟨"NOT32_LONG", 0x0000001F, 0x0000001F⟩]

/-- All 33 rows, in the table's order. -/
def opcodeTable : List Row := namedRows ++ unnamedRows ++ not32Rows

/-- Which row of the table an instruction stands for, counted from 0. -/
def rowIndex : Instr → Fin 33
  | .lui _ _ => 0
  | .auipc _ _ => 1
  | .jal _ _ => 2
  | .jalr _ _ _ _ => 3
  | .load _ _ _ _ => 4
  | .branch _ _ _ _ => 5
  | .store _ _ _ _ => 6
  | .opImm _ _ _ _ => 7
  | .op _ _ _ _ _ => 8
  | .sub _ _ _ => 9
  | .opc0000111 _ _ _ _ _ => 10
  | .opc0001011 _ _ _ _ _ => 11
  | .opc0001111 _ _ _ _ _ => 12
  | .opc0011011 _ _ _ _ _ => 13
  | .opc0100111 _ _ _ _ _ => 14
  | .opc0101011 _ _ _ _ _ => 15
  | .opc0101111 _ _ _ _ _ => 16
  | .opc0111011 _ _ _ _ _ => 17
  | .opc1000011 _ _ _ _ _ => 18
  | .opc1000111 _ _ _ _ _ => 19
  | .opc1001011 _ _ _ _ _ => 20
  | .opc1001111 _ _ _ _ _ => 21
  | .opc1010011 _ _ _ _ _ => 22
  | .opc1010111 _ _ _ _ _ => 23
  | .opc1011011 _ _ _ _ _ => 24
  | .opc1101011 _ _ _ _ _ => 25
  | .opc1110011 _ _ _ _ _ => 26
  | .opc1110111 _ _ _ _ _ => 27
  | .opc1111011 _ _ _ _ _ => 28
  | .not32Low00 _ => 29
  | .not32Low01 _ => 30
  | .not32Low10 _ => 31
  | .not32Long _ => 32

theorem opcodeTable_length : opcodeTable.length = 33 := rfl

/-- The row of the table an instruction stands for. -/
def rowOf (i : Instr) : Row := opcodeTable.get ((rowIndex i).cast opcodeTable_length.symm)

/-- OP's row, the one row that shares words with another, SUB's (R220). -/
def opRow : Row := ⟨"OP", 0x0000007F, 0x00000033⟩

end Sys2Proof
end

