-- ==== Sys2Proof/Machine/State.lean ====
section
/-! DEFINITION. The state of the front end, what the caller can ask of it and what it hands back
(spec/10_state.md, spec/70_reset_and_hazards.md R281).

`regs`, `pc`, `source` and `dataSource` are the spec's closed list of state (R20). `output`, `calls`
and `onError` are the model's own: they stand for the interface to the caller (log 1, 2, 3), and no
rule of the core reads them. -/

namespace Sys2Proof.Machine

/-! ## Byte sequences -/

/-- A finite sequence of bytes at offsets 0 to `size - 1` (R50): `cells` lists, by rising address,
the bytes that differ from `Config.unlistedByte`. -/
structure Memory where
  size  : Nat
  cells : List Host.Cell
  deriving DecidableEq, Repr

/-! ## What the block puts out -/

/-- The Decoded Field Set, the output of the field decoder (R35, R37). -/
structure FieldSet where
  opcode  : Opcode
  funct3  : Funct3
  funct7  : Funct7
  rs1     : RegIndex
  rs2     : RegIndex
  rd      : RegIndex
  success : Bool
  deriving DecidableEq, Repr

/-- All output ports of the composed block (R37, R210). -/
structure Decoded where
  fields : FieldSet
  imm    : Word
  deriving DecidableEq, Repr

/-! ## Errors -/

/-- The errors an operation can end in (R250): both are `fetch`'s, both leave the state as it was
(R258). -/
inductive Fault where
  /-- Raised by `fetch` when no instruction source is linked (R251). Safe: no word is made up. -/
  | noSource
  /-- Raised by `fetch` when fewer than four bytes lie at the aligned address `addr` (R252). Safe:
  no partial word is made up. -/
  | outOfBounds (addr : Word)
  deriving DecidableEq, Repr

/-- Why an instruction has no meaning in the model. -/
inductive Refusal where
  /-- Raised by an arm of `exec` whose instruction has no meaning yet; no arm is such. Safe. -/
  | notModelled (mnemonic : String)
  deriving DecidableEq, Repr

/-! ## The caller's operations -/

/-- The architectural names bound to indices 0 to 4 (R23, spec/90_conflicts.md C3). -/
inductive RegName where
  | zero
  | returnAddress
  | stackPointer
  | globalPointer
  | threadPointer
  deriving DecidableEq, Repr

/-- What `link(i)` returns: a stable name of slot i of the register file (R25). -/
structure Handle where
  index : RegIndex
  deriving DecidableEq, Repr

/-- The access paths to a general register: the file's index accessor, a handle, an architectural
name. All three reach the same storage (R23, R25). -/
inductive RegRef where
  | index (i : RegIndex)
  | handle (h : Handle)
  | named (n : RegName)
  deriving DecidableEq, Repr

/-- The `pc` argument of `fetch` (R120): "normally the `pc` register's current value", or any value
the caller passes. -/
inductive PcArg where
  | register
  | value (pc : Word)
  deriving DecidableEq, Repr

/-- What the caller can do (R38). A value written to a register or to the pc is any unsigned integer:
the cell truncates it (R24). -/
inductive Call where
  /-- `reset()` (R280). -/
  | reset
  /-- `fetch(pc)` (R120). -/
  | fetch (pc : PcArg)
  /-- `decode_fields(raw_word)` (R140), on any word. -/
  | decodeFields (instr : Word)
  /-- `decode_immediate(raw_word, opcode)` (R170), on any pair. -/
  | decodeImmediate (instr : Word) (opcode : Opcode)
  /-- `decode_cycle(pc)` (R210): fetch, fields, immediate. -/
  | decodeCycle (pc : PcArg)
  /-- `dump()` (R41). -/
  | dump
  /-- Linking an instruction source: the image is raw, byte 0 at address 0 (R51, R283). -/
  | linkSource (image : List Byte)
  /-- Linking a data source, which the core never reads or writes (R53). -/
  | linkData (image : List Byte)
  /-- `link(i)` (R25). -/
  | link (i : RegIndex)
  /-- `get()` of a general register (R24). -/
  | readReg (r : RegRef)
  /-- `set(value)` of a general register (R24). -/
  | writeReg (r : RegRef) (value : Nat)
  /-- `get()` of the pc through its handle (R28). -/
  | readPc
  /-- `set(value)` of the pc through its handle (R28, R29). -/
  | writePc (value : Nat)
  deriving DecidableEq, Repr

/-- What the caller does when an operation returns an error (R123, R258: the caller decides). -/
inductive OnError where
  /-- It invokes nothing more. -/
  | stop
  /-- It notes the error and goes on to its next operation (R259). -/
  | goOn
  deriving DecidableEq, Repr

/-- What an operation hands back to the caller. -/
inductive Output where
  /-- `reset`, a link of a source and a write hand back nothing. -/
  | done
  /-- A raw instruction word (R120). -/
  | word (instr : Word)
  /-- The outputs of the field decoder alone (R140). -/
  | fields (f : FieldSet)
  /-- The output of the immediate decoder alone (R170). -/
  | immediate (imm : Word)
  /-- The outputs of the composed block (R210). -/
  | decoded (d : Decoded)
  /-- The diagnostic text (R41), character by character. -/
  | text (t : List Char)
  /-- A register's value or the pc's (R24). -/
  | value (v : Word)
  /-- A handle (R25). -/
  | handle (h : Handle)
  /-- An error returned in place of a result (R9, R250). -/
  | error (e : Fault)
  deriving DecidableEq, Repr

/-! ## The state -/

structure State where
  /-- The register file: cell i is `x[i]` (R21). Cell 0 is read and written through
  `readX` and `writeX` only, which give R22. -/
  regs       : Vector Word 32
  /-- The program counter, not part of the file (R28). -/
  pc         : Word
  /-- The linked instruction source: none when `HAS_SOURCE` is false (R20, R50). -/
  source     : Option Memory
  /-- The linked data source, dead to the core (R20, R53; log 5). -/
  dataSource : Option Memory
  /-- The model's own: the operations the caller has still to invoke, the next one first (log 2). -/
  calls      : List Call
  /-- The model's own: what the caller does on an error (log 3). -/
  onError    : OnError
  /-- The model's own: what the last operation handed back, none before the first (log 1). -/
  output     : Option Output
  deriving DecidableEq, Repr

/-- What every operation ends in. -/
abbrev Outcome := Host.Outcome State Fault Refusal

/-- The machine right after construction (R281, first column): registers and pc 0, no instruction
source linked (D9). The rest is the model's choice (log 1, 2, 3, 5). -/
def State.reset : State where
  regs       := Vector.replicate 32 0#32
  pc         := 0#32
  source     := none
  dataSource := none
  calls      := []
  onError    := .stop
  output     := none

end Sys2Proof.Machine
end

