-- ==== Sys2Proof/Machine/Ops.lean ====
section
/-! DEFINITION. The operations every instruction and every call is built from: byte sequences, the
register file, the pc, the output ports and raising an error. -/

namespace Sys2Proof.Machine

/-! ## Cells: a canonical list of (address, byte) pairs -/

/-- The byte at an address: the listed one, else `Config.unlistedByte`. -/
def cellsGet : List Host.Cell → Nat → Byte
  | [], _ => Config.unlistedByte
  | (k, v) :: rest, a => if k = a then v else cellsGet rest a

/-- A cell put in front of cells at higher addresses, unless it holds what an unlisted address
reads as. -/
def cellsCons (a : Nat) (b : Byte) (rest : List Host.Cell) : List Host.Cell :=
  if b = Config.unlistedByte then rest else (a, b) :: rest

/-- One byte changed; the list stays canonical. -/
def cellsSet : List Host.Cell → Nat → Byte → List Host.Cell
  | [], a, b => cellsCons a b []
  | (k, v) :: rest, a, b =>
    if a < k then cellsCons a b ((k, v) :: rest)
    else if a = k then cellsCons a b rest
    else (k, v) :: cellsSet rest a b

/-- The cells of a list of bytes laid out from address `a` upwards. -/
def cellsOfBytes : Nat → List Byte → List Host.Cell
  | _, [] => []
  | a, b :: rest => cellsCons a b (cellsOfBytes (a + 1) rest)

/-- Addresses rise strictly from `lo` on, stay below `hi`, and no cell holds what an unlisted address
reads as. -/
def cellsWf (lo hi : Nat) : List Host.Cell → Bool
  | [] => true
  | (k, v) :: rest => lo ≤ k && k < hi && v != Config.unlistedByte && cellsWf (k + 1) hi rest

/-! ## Byte sequences -/

/-- The canonical form of a byte sequence: equal sequences are equal data. -/
def Memory.wf (m : Memory) : Bool := cellsWf 0 m.size m.cells

/-- The sequence of no bytes. -/
def Memory.empty : Memory := ⟨0, []⟩

/-- A raw image: byte 0 at address 0, no header (R51, R283). -/
def Memory.ofBytes (image : List Byte) : Memory := ⟨image.length, cellsOfBytes 0 image⟩

/-- `IMEM[a]`, for a < size. -/
def Memory.byte (m : Memory) (a : Nat) : Byte := cellsGet m.cells a

/-- The sequence with byte `a` set to `b`, made longer when `a` is at or past its end. No rule of the
core writes a source (R52): this is how the world outside lays out a program. -/
def Memory.write (m : Memory) (a : Nat) (b : Byte) : Memory :=
  ⟨max m.size (a + 1), cellsSet m.cells a b⟩

/-- A word stored little-endian at four addresses from `a` on (R54). -/
def Memory.placeWord (m : Memory) (a : Nat) (w : Word) : Memory :=
  (((m.write a (w.extractLsb' 0 8)).write (a + 1) (w.extractLsb' 8 8)).write (a + 2)
    (w.extractLsb' 16 8)).write (a + 3) (w.extractLsb' 24 8)

/-! ## State updates, one per field -/

def State.setRegs (s : State) (regs : Vector Word 32) : State := { s with regs }
def State.setPc (s : State) (pc : Word) : State := { s with pc }
def State.setSource (s : State) (source : Option Memory) : State := { s with source }
def State.setDataSource (s : State) (dataSource : Option Memory) : State := { s with dataSource }
def State.setCalls (s : State) (calls : List Call) : State := { s with calls }
def State.setOutput (s : State) (o : Output) : State := { s with output := some o }

/-! ## The register file (R22, R24, R25) -/

/-- The index an architectural name is bound to (R23). -/
def RegName.index : RegName → RegIndex
  | .zero => 0#5
  | .returnAddress => 1#5
  | .stackPointer => 2#5
  | .globalPointer => 3#5
  | .threadPointer => 4#5

/-- The slot an access path reaches (R25: the same storage, not a copy). -/
def RegRef.slot : RegRef → RegIndex
  | .index i => i
  | .handle h => h.index
  | .named n => n.index

/-- `link(i)` (R25). -/
def linkHandle (i : RegIndex) : Handle := ⟨i⟩

/-- `x[i]`: register 0 reads 0 at every read (R22). -/
def readX (s : State) (i : RegIndex) : Word :=
  if i = 0#5 then 0#32 else s.regs[i.toNat]'i.isLt

/-- `x[i] <- v`: a write of register 0 is discarded (R22). -/
def writeX (s : State) (i : RegIndex) (v : Word) : State :=
  if i = 0#5 then s else s.setRegs (s.regs.set i.toNat v i.isLt)

/-- An integer cut to the declared width of a cell, `v mod 2^32` (R24). -/
def truncate (v : Nat) : Word := BitVec.ofNat 32 v

/-- `reset()` (R280): every register and the pc are 0, the links stay. -/
def resetRegisters (s : State) : State := (s.setRegs (Vector.replicate 32 0#32)).setPc 0#32

/-! ## Ending an operation -/

/-- The operation ends and hands `o` back. -/
def finish (s : State) (o : Output) : Outcome := .next (s.setOutput o)

/-- The decode cycle ends with the block's outputs on the ports: all an instruction does (R228). -/
def drive (s : State) (d : Decoded) : Outcome := finish s (.decoded d)

/-- `raise E` (R9, R258): the operation returns the error in place of a result and nothing else
changes; there is no trap entry. A caller that stops ends the run there; one that goes on has the
error in hand and can invoke anything next (R259). -/
def raise (s : State) (e : Fault) : Outcome :=
  match s.onError with
  | .stop => .fault e
  | .goOn => finish s (.error e)

end Sys2Proof.Machine
end

