-- ==== Sys2Proof/Machine/Operands.lean ====
section
/-! DEFINITION. The operand forms: what the output ports show for the operands of each format. The
fixed fields are output whatever the format (spec/41_field_decoder.md R151), so a field whose bits
carry the immediate shows them: the table of spec/43_opcode_classes.md R227. -/

namespace Sys2Proof.Machine

/-- The register-register format (R83), and every class whose immediate is 0 (R218, R219, R221). -/
def portsR (opcode : Opcode) (funct7 : Funct7) (rs2 rs1 : RegIndex) (funct3 : Funct3)
    (rd : RegIndex) : Decoded where
  fields := { opcode, funct3, funct7, rs1, rs2, rd, success := true }
  imm    := 0#32

/-- The I format (R84) with an immediate: `rs2` shows imm[4:0] and `funct7` imm[11:5]. -/
def portsI (opcode : Opcode) (rd : RegIndex) (funct3 : Funct3) (rs1 : RegIndex)
    (imm : BitVec 12) : Decoded where
  fields := { opcode, funct3, funct7 := imm.extractLsb' 5 7, rs1, rs2 := imm.extractLsb' 0 5, rd,
              success := true }
  imm    := imm.setWidth 32

/-- The I layout of opcode 0010011, whose immediate output is 0 (R218): {funct7, rs2} = instr[31:20]. -/
def portsINoImm (opcode : Opcode) (rd : RegIndex) (funct3 : Funct3) (rs1 : RegIndex)
    (hi : BitVec 12) : Decoded where
  fields := { opcode, funct3, funct7 := hi.extractLsb' 5 7, rs1, rs2 := hi.extractLsb' 0 5, rd,
              success := true }
  imm    := 0#32

/-- The S format (R85): `rd` shows imm[4:0] and `funct7` imm[11:5]. -/
def portsS (opcode : Opcode) (funct3 : Funct3) (rs1 rs2 : RegIndex) (imm : BitVec 12) : Decoded where
  fields := { opcode, funct3, funct7 := imm.extractLsb' 5 7, rs1, rs2, rd := imm.extractLsb' 0 5,
              success := true }
  imm    := imm.setWidth 32

/-- The B format (R86), `imm` = imm[12:1]: `rd` shows {imm[4:1], imm[11]} and `funct7`
{imm[12], imm[10:5]}. -/
def portsB (opcode : Opcode) (funct3 : Funct3) (rs1 rs2 : RegIndex) (imm : BitVec 12) : Decoded where
  fields := { opcode, funct3, funct7 := imm.extractLsb' 11 1 ++ imm.extractLsb' 4 6, rs1, rs2,
              rd := imm.extractLsb' 0 4 ++ imm.extractLsb' 10 1, success := true }
  imm    := imm.setWidth 32 <<< 1

/-- The U format (R87), `imm` = imm[31:12]: `funct3`, `rs1`, `rs2`, `funct7` show imm[14:12],
imm[19:15], imm[24:20], imm[31:25]. -/
def portsU (opcode : Opcode) (rd : RegIndex) (imm : BitVec 20) : Decoded where
  fields := { opcode, funct3 := imm.extractLsb' 0 3, funct7 := imm.extractLsb' 13 7,
              rs1 := imm.extractLsb' 3 5, rs2 := imm.extractLsb' 8 5, rd, success := true }
  imm    := imm.setWidth 32 <<< 12

/-- The J format (R88), `imm` = imm[20:1]: `funct3` shows imm[14:12], `rs1` imm[19:15], `rs2`
{imm[4:1], imm[11]}, `funct7` {imm[20], imm[10:5]}. -/
def portsJ (opcode : Opcode) (rd : RegIndex) (imm : BitVec 20) : Decoded where
  fields := { opcode, funct3 := imm.extractLsb' 11 3,
              funct7 := imm.extractLsb' 19 1 ++ imm.extractLsb' 4 6,
              rs1 := imm.extractLsb' 14 5, rs2 := imm.extractLsb' 0 4 ++ imm.extractLsb' 10 1, rd,
              success := true }
  imm    := imm.setWidth 32 <<< 1

/-- A word that is not of 32-bit format (R143, R179): everything is 0, whatever its other bits. -/
def portsNot32 : Decoded where
  fields := { opcode := 0#7, funct3 := 0#3, funct7 := 0#7, rs1 := 0#5, rs2 := 0#5, rd := 0#5,
              success := false }
  imm    := 0#32

end Sys2Proof.Machine
end

