-- ==== Sys2Proof/Machine/Alu.lean ====
section
/-! DEFINITION. The ALU classes (spec/43_opcode_classes.md R218 to R220): fields out, immediate 0. -/

namespace Sys2Proof.Machine

/-- ALU-immediate (R218): opcode 0010011 is no trigger, so the immediate output is 0
(spec/90_conflicts.md C5). -/
def execOpImm (rd : RegIndex) (funct3 : Funct3) (rs1 : RegIndex) (hi : BitVec 12) (s : State) :
    Outcome :=
  drive s (portsINoImm 0b0010011#7 rd funct3 rs1 hi)

/-- Register-register (R219): any function codes. -/
def execOp (funct7 : Funct7) (rs2 rs1 : RegIndex) (funct3 : Funct3) (rd : RegIndex) (s : State) :
    Outcome :=
  drive s (portsR 0b0110011#7 funct7 rs2 rs1 funct3 rd)

/-- `sub` (R220): nothing more than its class. -/
def execSub (rs2 rs1 rd : RegIndex) (s : State) : Outcome :=
  drive s (portsR 0b0110011#7 0b0100000#7 rs2 rs1 0b000#3 rd)

end Sys2Proof.Machine
end

