-- ==== Sys2Proof/Machine/Control.lean ====
section
/-! DEFINITION. The control-transfer classes (spec/43_opcode_classes.md R213, R214, R216): decoded, not
performed (R229): no target, no link value, no comparison, no change of the pc. -/

namespace Sys2Proof.Machine

/-- JAL (R213). -/
def execJal (rd : RegIndex) (imm : BitVec 20) (s : State) : Outcome :=
  drive s (portsJ 0b1101111#7 rd imm)

/-- JALR (R214), for every funct3. -/
def execJalr (rd : RegIndex) (funct3 : Funct3) (rs1 : RegIndex) (imm : BitVec 12) (s : State) :
    Outcome :=
  drive s (portsI 0b1100111#7 rd funct3 rs1 imm)

/-- Branches (R216), every funct3 alike. -/
def execBranch (funct3 : Funct3) (rs1 rs2 : RegIndex) (imm : BitVec 12) (s : State) : Outcome :=
  drive s (portsB 0b1100011#7 funct3 rs1 rs2 imm)

end Sys2Proof.Machine
end

