-- ==== Sys2Proof/Machine/LoadStore.lean ====
section
/-! DEFINITION. Loads and stores (spec/43_opcode_classes.md R215, R217): decoded, not performed (R230):
no effective address and no access of the data source. -/

namespace Sys2Proof.Machine

/-- Loads (R215), every funct3 alike. -/
def execLoad (rd : RegIndex) (funct3 : Funct3) (rs1 : RegIndex) (imm : BitVec 12) (s : State) :
    Outcome :=
  drive s (portsI 0b0000011#7 rd funct3 rs1 imm)

/-- Stores (R217), every funct3 alike. -/
def execStore (funct3 : Funct3) (rs1 rs2 : RegIndex) (imm : BitVec 12) (s : State) : Outcome :=
  drive s (portsS 0b0100011#7 funct3 rs1 rs2 imm)

end Sys2Proof.Machine
end

