-- ==== Sys2Proof/Machine/Not32.lean ====
section
/-! DEFINITION. The words that are not of 32-bit format (spec/43_opcode_classes.md R222 to R225): `success`
is 0 and every output is 0, as data; no error is raised (spec/60_exceptions.md R254). -/

namespace Sys2Proof.Machine

/-- instr[1:0] = 00 (R222). -/
def execNot32Low00 (_rest : BitVec 30) (s : State) : Outcome := drive s portsNot32

/-- instr[1:0] = 01 (R223). -/
def execNot32Low01 (_rest : BitVec 30) (s : State) : Outcome := drive s portsNot32

/-- instr[1:0] = 10 (R224). -/
def execNot32Low10 (_rest : BitVec 30) (s : State) : Outcome := drive s portsNot32

/-- instr[4:0] = 11111 (R225). -/
def execNot32Long (_rest : BitVec 27) (s : State) : Outcome := drive s portsNot32

end Sys2Proof.Machine
end

