-- ==== Sys2Proof/Machine/Unnamed.lean ====
section
/-! DEFINITION. The 19 opcodes of 32-bit format that RVS does not name (spec/43_opcode_classes.md R221):
fields out, immediate 0. The names RISC-V gives them (R97) change no output. -/

namespace Sys2Proof.Machine

/-- Opcode 0000111 (R221). -/
def execOpc0000111 (funct7 : Funct7) (rs2 rs1 : RegIndex) (funct3 : Funct3) (rd : RegIndex)
    (s : State) : Outcome :=
  drive s (portsR 0b0000111#7 funct7 rs2 rs1 funct3 rd)

/-- Opcode 0001011 (R221). -/
def execOpc0001011 (funct7 : Funct7) (rs2 rs1 : RegIndex) (funct3 : Funct3) (rd : RegIndex)
    (s : State) : Outcome :=
  drive s (portsR 0b0001011#7 funct7 rs2 rs1 funct3 rd)

/-- Opcode 0001111 (R221). -/
def execOpc0001111 (funct7 : Funct7) (rs2 rs1 : RegIndex) (funct3 : Funct3) (rd : RegIndex)
    (s : State) : Outcome :=
  drive s (portsR 0b0001111#7 funct7 rs2 rs1 funct3 rd)

/-- Opcode 0011011 (R221). -/
def execOpc0011011 (funct7 : Funct7) (rs2 rs1 : RegIndex) (funct3 : Funct3) (rd : RegIndex)
    (s : State) : Outcome :=
  drive s (portsR 0b0011011#7 funct7 rs2 rs1 funct3 rd)

/-- Opcode 0100111 (R221). -/
def execOpc0100111 (funct7 : Funct7) (rs2 rs1 : RegIndex) (funct3 : Funct3) (rd : RegIndex)
    (s : State) : Outcome :=
  drive s (portsR 0b0100111#7 funct7 rs2 rs1 funct3 rd)

/-- Opcode 0101011 (R221). -/
def execOpc0101011 (funct7 : Funct7) (rs2 rs1 : RegIndex) (funct3 : Funct3) (rd : RegIndex)
    (s : State) : Outcome :=
  drive s (portsR 0b0101011#7 funct7 rs2 rs1 funct3 rd)

/-- Opcode 0101111 (R221). -/
def execOpc0101111 (funct7 : Funct7) (rs2 rs1 : RegIndex) (funct3 : Funct3) (rd : RegIndex)
    (s : State) : Outcome :=
  drive s (portsR 0b0101111#7 funct7 rs2 rs1 funct3 rd)

/-- Opcode 0111011 (R221). -/
def execOpc0111011 (funct7 : Funct7) (rs2 rs1 : RegIndex) (funct3 : Funct3) (rd : RegIndex)
    (s : State) : Outcome :=
  drive s (portsR 0b0111011#7 funct7 rs2 rs1 funct3 rd)

/-- Opcode 1000011 (R221). -/
def execOpc1000011 (funct7 : Funct7) (rs2 rs1 : RegIndex) (funct3 : Funct3) (rd : RegIndex)
    (s : State) : Outcome :=
  drive s (portsR 0b1000011#7 funct7 rs2 rs1 funct3 rd)

/-- Opcode 1000111 (R221). -/
def execOpc1000111 (funct7 : Funct7) (rs2 rs1 : RegIndex) (funct3 : Funct3) (rd : RegIndex)
    (s : State) : Outcome :=
  drive s (portsR 0b1000111#7 funct7 rs2 rs1 funct3 rd)

/-- Opcode 1001011 (R221). -/
def execOpc1001011 (funct7 : Funct7) (rs2 rs1 : RegIndex) (funct3 : Funct3) (rd : RegIndex)
    (s : State) : Outcome :=
  drive s (portsR 0b1001011#7 funct7 rs2 rs1 funct3 rd)

/-- Opcode 1001111 (R221). -/
def execOpc1001111 (funct7 : Funct7) (rs2 rs1 : RegIndex) (funct3 : Funct3) (rd : RegIndex)
    (s : State) : Outcome :=
  drive s (portsR 0b1001111#7 funct7 rs2 rs1 funct3 rd)

/-- Opcode 1010011 (R221). -/
def execOpc1010011 (funct7 : Funct7) (rs2 rs1 : RegIndex) (funct3 : Funct3) (rd : RegIndex)
    (s : State) : Outcome :=
  drive s (portsR 0b1010011#7 funct7 rs2 rs1 funct3 rd)

/-- Opcode 1010111 (R221). -/
def execOpc1010111 (funct7 : Funct7) (rs2 rs1 : RegIndex) (funct3 : Funct3) (rd : RegIndex)
    (s : State) : Outcome :=
  drive s (portsR 0b1010111#7 funct7 rs2 rs1 funct3 rd)

/-- Opcode 1011011 (R221). -/
def execOpc1011011 (funct7 : Funct7) (rs2 rs1 : RegIndex) (funct3 : Funct3) (rd : RegIndex)
    (s : State) : Outcome :=
  drive s (portsR 0b1011011#7 funct7 rs2 rs1 funct3 rd)

/-- Opcode 1101011 (R221). -/
def execOpc1101011 (funct7 : Funct7) (rs2 rs1 : RegIndex) (funct3 : Funct3) (rd : RegIndex)
    (s : State) : Outcome :=
  drive s (portsR 0b1101011#7 funct7 rs2 rs1 funct3 rd)

/-- Opcode 1110011 (R221). -/
def execOpc1110011 (funct7 : Funct7) (rs2 rs1 : RegIndex) (funct3 : Funct3) (rd : RegIndex)
    (s : State) : Outcome :=
  drive s (portsR 0b1110011#7 funct7 rs2 rs1 funct3 rd)

/-- Opcode 1110111 (R221). -/
def execOpc1110111 (funct7 : Funct7) (rs2 rs1 : RegIndex) (funct3 : Funct3) (rd : RegIndex)
    (s : State) : Outcome :=
  drive s (portsR 0b1110111#7 funct7 rs2 rs1 funct3 rd)

/-- Opcode 1111011 (R221). -/
def execOpc1111011 (funct7 : Funct7) (rs2 rs1 : RegIndex) (funct3 : Funct3) (rd : RegIndex)
    (s : State) : Outcome :=
  drive s (portsR 0b1111011#7 funct7 rs2 rs1 funct3 rd)

end Sys2Proof.Machine
end

