-- ==== Sys2Proof/Machine/Upper.lean ====
section
/-! DEFINITION. The U-format classes (spec/43_opcode_classes.md R211, R212): decoded, not executed. -/

namespace Sys2Proof.Machine

/-- LUI (R211): `imm` is the upper 20 bits in place. -/
def execLui (rd : RegIndex) (imm : BitVec 20) (s : State) : Outcome :=
  drive s (portsU 0b0110111#7 rd imm)

/-- AUIPC (R212): the pc is not added. -/
def execAuipc (rd : RegIndex) (imm : BitVec 20) (s : State) : Outcome :=
  drive s (portsU 0b0010111#7 rd imm)

end Sys2Proof.Machine
end

