-- ==== Sys2Proof/Machine/Dispatch.lean ====
section
/-! DEFINITION. One arm per class of word (spec/opcode_table.json). -/

namespace Sys2Proof.Machine

def exec (i : Instr) (s : State) : Host.Outcome State Fault Refusal :=
  match i with
  | .lui rd imm => Sys2Proof.Machine.execLui rd imm s
  | .auipc rd imm => Sys2Proof.Machine.execAuipc rd imm s
  | .jal rd imm => Sys2Proof.Machine.execJal rd imm s
  | .jalr rd funct3 rs1 imm => Sys2Proof.Machine.execJalr rd funct3 rs1 imm s
  | .load rd funct3 rs1 imm => Sys2Proof.Machine.execLoad rd funct3 rs1 imm s
  | .branch funct3 rs1 rs2 imm => Sys2Proof.Machine.execBranch funct3 rs1 rs2 imm s
  | .store funct3 rs1 rs2 imm => Sys2Proof.Machine.execStore funct3 rs1 rs2 imm s
  | .opImm rd funct3 rs1 hi => Sys2Proof.Machine.execOpImm rd funct3 rs1 hi s
  | .op funct7 rs2 rs1 funct3 rd => Sys2Proof.Machine.execOp funct7 rs2 rs1 funct3 rd s
  | .sub rs2 rs1 rd => Sys2Proof.Machine.execSub rs2 rs1 rd s
  | .opc0000111 funct7 rs2 rs1 funct3 rd => Sys2Proof.Machine.execOpc0000111 funct7 rs2 rs1 funct3 rd s
  | .opc0001011 funct7 rs2 rs1 funct3 rd => Sys2Proof.Machine.execOpc0001011 funct7 rs2 rs1 funct3 rd s
  | .opc0001111 funct7 rs2 rs1 funct3 rd => Sys2Proof.Machine.execOpc0001111 funct7 rs2 rs1 funct3 rd s
  | .opc0011011 funct7 rs2 rs1 funct3 rd => Sys2Proof.Machine.execOpc0011011 funct7 rs2 rs1 funct3 rd s
  | .opc0100111 funct7 rs2 rs1 funct3 rd => Sys2Proof.Machine.execOpc0100111 funct7 rs2 rs1 funct3 rd s
  | .opc0101011 funct7 rs2 rs1 funct3 rd => Sys2Proof.Machine.execOpc0101011 funct7 rs2 rs1 funct3 rd s
  | .opc0101111 funct7 rs2 rs1 funct3 rd => Sys2Proof.Machine.execOpc0101111 funct7 rs2 rs1 funct3 rd s
  | .opc0111011 funct7 rs2 rs1 funct3 rd => Sys2Proof.Machine.execOpc0111011 funct7 rs2 rs1 funct3 rd s
  | .opc1000011 funct7 rs2 rs1 funct3 rd => Sys2Proof.Machine.execOpc1000011 funct7 rs2 rs1 funct3 rd s
  | .opc1000111 funct7 rs2 rs1 funct3 rd => Sys2Proof.Machine.execOpc1000111 funct7 rs2 rs1 funct3 rd s
  | .opc1001011 funct7 rs2 rs1 funct3 rd => Sys2Proof.Machine.execOpc1001011 funct7 rs2 rs1 funct3 rd s
  | .opc1001111 funct7 rs2 rs1 funct3 rd => Sys2Proof.Machine.execOpc1001111 funct7 rs2 rs1 funct3 rd s
  | .opc1010011 funct7 rs2 rs1 funct3 rd => Sys2Proof.Machine.execOpc1010011 funct7 rs2 rs1 funct3 rd s
  | .opc1010111 funct7 rs2 rs1 funct3 rd => Sys2Proof.Machine.execOpc1010111 funct7 rs2 rs1 funct3 rd s
  | .opc1011011 funct7 rs2 rs1 funct3 rd => Sys2Proof.Machine.execOpc1011011 funct7 rs2 rs1 funct3 rd s
  | .opc1101011 funct7 rs2 rs1 funct3 rd => Sys2Proof.Machine.execOpc1101011 funct7 rs2 rs1 funct3 rd s
  | .opc1110011 funct7 rs2 rs1 funct3 rd => Sys2Proof.Machine.execOpc1110011 funct7 rs2 rs1 funct3 rd s
  | .opc1110111 funct7 rs2 rs1 funct3 rd => Sys2Proof.Machine.execOpc1110111 funct7 rs2 rs1 funct3 rd s
  | .opc1111011 funct7 rs2 rs1 funct3 rd => Sys2Proof.Machine.execOpc1111011 funct7 rs2 rs1 funct3 rd s
  | .not32Low00 rest => Sys2Proof.Machine.execNot32Low00 rest s
  | .not32Low01 rest => Sys2Proof.Machine.execNot32Low01 rest s
  | .not32Low10 rest => Sys2Proof.Machine.execNot32Low10 rest s
  | .not32Long rest => Sys2Proof.Machine.execNot32Long rest s

end Sys2Proof.Machine
end

