-- ==== Sys2Proof/Machine/Dump.lean ====
section
/-! DEFINITION. The diagnostic dump (spec/10_state.md R41). RVS fixes eight hex digits a line and the
order of the 33 lines; the spelling of the rest is the spec's decision D11 (log 10). -/

namespace Sys2Proof.Machine

/-- One hex digit, upper case (D11). -/
def hexDigit (d : BitVec 4) : Char :=
  match d with
  | 0x0#4 => '0' | 0x1#4 => '1' | 0x2#4 => '2' | 0x3#4 => '3'
  | 0x4#4 => '4' | 0x5#4 => '5' | 0x6#4 => '6' | 0x7#4 => '7'
  | 0x8#4 => '8' | 0x9#4 => '9' | 0xA#4 => 'A' | 0xB#4 => 'B'
  | 0xC#4 => 'C' | 0xD#4 => 'D' | 0xE#4 => 'E' | _ => 'F'

/-- A 32-bit value as eight hex digits, the most significant first. -/
def hexLine (v : Word) : List Char :=
  [hexDigit (v.extractLsb' 28 4), hexDigit (v.extractLsb' 24 4), hexDigit (v.extractLsb' 20 4),
   hexDigit (v.extractLsb' 16 4), hexDigit (v.extractLsb' 12 4), hexDigit (v.extractLsb' 8 4),
   hexDigit (v.extractLsb' 4 4), hexDigit (v.extractLsb' 0 4)]

/-- `x[0]`, ..., `x[31]` in index order (R26). -/
def allX (s : State) : List Word := (List.range 32).map fun i => readX s (BitVec.ofNat 5 i)

/-- The 33 lines: the registers in ascending order, then the pc (R41). -/
def dumpLines (s : State) : List (List Char) := (allX s).map hexLine ++ [hexLine s.pc]

/-- `dump()`: each line ends in one line feed (D11). -/
def dumpText (s : State) : List Char := (dumpLines s).flatMap fun line => line ++ ['\n']

/-- The value of a hex digit of either case, for statements about the dump that use only what RVS
fixes. -/
def hexDigitValue (c : Char) : Option Nat :=
  if '0' ≤ c ∧ c ≤ '9' then some (c.toNat - 48)
  else if 'A' ≤ c ∧ c ≤ 'F' then some (c.toNat - 55)
  else if 'a' ≤ c ∧ c ≤ 'f' then some (c.toNat - 87)
  else none

/-- The number a run of hex digits writes, `acc` being the digits before it. -/
def readHexFrom (acc : Nat) : List Char → Option Nat
  | [] => some acc
  | c :: rest =>
    match hexDigitValue c with
    | some d => readHexFrom (16 * acc + d) rest
    | none => none

end Sys2Proof.Machine
end

