-- ==== Sys2Proof/Machine/Fetch.lean ====
section
/-! DEFINITION. The instruction source and the fetch unit (spec/20_memory.md, spec/40_fetch_unit.md). -/

namespace Sys2Proof.Machine

/-- The fetch address: the pc with its two low bits cleared (R55, R121). -/
def fetchAddr (pc : Word) : Word := pc &&& 0xFFFFFFFC#32

/-- `MemRead(addr, 4)` (R57), the only access there is (R56). `NoSource` is tested first (D22), and
the bound is a sum of natural numbers, so it does not wrap. -/
def memRead4 (source : Option Memory) (addr : Word) : Except Fault (Vector Byte 4) :=
  match source with
  | none => .error .noSource
  | some m =>
    if addr.toNat + 4 > m.size then .error (.outOfBounds addr)
    else .ok #v[m.byte addr.toNat, m.byte (addr.toNat + 1), m.byte (addr.toNat + 2),
                m.byte (addr.toNat + 3)]

/-- `fetch(pc)` (R121). It writes no state (R122). -/
def fetch (source : Option Memory) (pc : Word) : Except Fault Word :=
  match memRead4 source (fetchAddr pc) with
  | .error e => .error e
  | .ok b => .ok (wordOfBytes b[0] b[1] b[2] b[3])

/-- The value of `fetch`'s argument (R120). -/
def PcArg.eval (s : State) : PcArg → Word
  | .register => s.pc
  | .value pc => pc

end Sys2Proof.Machine
end

