-- ==== Sys2Proof/Machine/Flags.lean ====
section
/-! DEFINITION. The front end has no flags (spec/10_state.md R31). The one status it computes is the
`success` output of the field decoder, from the length class of the word. -/

namespace Sys2Proof.Machine

/-- `success` (R81, R142): bits [1:0] are 11 and bits [4:2] are not 111. -/
def is32BitFormat (instr : Word) : Bool :=
  instr.extractLsb' 0 2 == 0b11#2 && instr.extractLsb' 2 3 != 0b111#3

end Sys2Proof.Machine
end

