-- ==== Sys2Proof/Machine/FieldDecoder.lean ====
section
/-! DEFINITION. The instruction field decoder (spec/41_field_decoder.md). -/

namespace Sys2Proof.Machine

/-- All outputs 0, `success` 0 (R143). -/
def noFields : FieldSet where
  opcode  := 0#7
  funct3  := 0#3
  funct7  := 0#7
  rs1     := 0#5
  rs2     := 0#5
  rd      := 0#5
  success := false

/-- `decode_fields` (R150). -/
def decodeFields (instr : Word) : FieldSet :=
  if is32BitFormat instr then
    { opcode  := instr.extractLsb' 0 7
      funct3  := instr.extractLsb' 12 3
      funct7  := instr.extractLsb' 25 7
      rs1     := instr.extractLsb' 15 5
      rs2     := instr.extractLsb' 20 5
      rd      := instr.extractLsb' 7 5
      success := true }
  else noFields

end Sys2Proof.Machine
end

