-- ==== Sys2Proof/Machine/ImmediateDecoder.lean ====
section
/-! DEFINITION. The immediate decoder and the composed block (spec/30_encoding.md R89 to R94,
spec/42_immediate_decoder.md, spec/43_opcode_classes.md R210). Nothing is sign-extended (R94). -/

namespace Sys2Proof.Machine

/-- `imm_U` (R89). -/
def immU (instr : Word) : Word := instr.extractLsb' 12 20 ++ 0#12

/-- `imm_J` (R90). -/
def immJ (instr : Word) : Word :=
  0#11 ++ instr.extractLsb' 31 1 ++ instr.extractLsb' 12 8 ++ instr.extractLsb' 20 1
    ++ instr.extractLsb' 21 10 ++ 0#1

/-- `imm_I` (R91): the shift is logical (spec/90_conflicts.md C1). -/
def immI (instr : Word) : Word := 0#20 ++ instr.extractLsb' 20 12

/-- `imm_B` (R92). -/
def immB (instr : Word) : Word :=
  0#19 ++ instr.extractLsb' 31 1 ++ instr.extractLsb' 7 1 ++ instr.extractLsb' 25 6
    ++ instr.extractLsb' 8 4 ++ 0#1

/-- `imm_S` (R93). -/
def immS (instr : Word) : Word := 0#20 ++ instr.extractLsb' 25 7 ++ instr.extractLsb' 7 5

/-- `decode_immediate` (R171): the `opcode` input alone selects (R172). -/
def decodeImmediate (instr : Word) (opcode : Opcode) : Word :=
  match opcode with
  | 0b0110111#7 => immU instr
  | 0b0010111#7 => immU instr
  | 0b1101111#7 => immJ instr
  | 0b1100111#7 => immI instr
  | 0b0000011#7 => immI instr
  | 0b1100011#7 => immB instr
  | 0b0100011#7 => immS instr
  | _ => 0#32

/-- The composed block, `decode` of R210: the field decoder's `opcode` output selects the immediate. -/
def decodeBlock (instr : Word) : Decoded where
  fields := decodeFields instr
  imm    := decodeImmediate instr (decodeFields instr).opcode

end Sys2Proof.Machine
end

