-- ==== Sys2Proof/Machine/Caller.lean ====
section
/-! DEFINITION. The caller's operations (spec/10_state.md R38), each one atomic step (R287). -/

namespace Sys2Proof.Machine

/-- The operation the caller invokes next. With nothing noted down it runs a decode cycle at the pc
(log 2). -/
def nextCall (s : State) : Call :=
  match s.calls with
  | [] => .decodeCycle .register
  | c :: _ => c

/-- The state once the next operation is taken off the caller's list. -/
def dropCall (s : State) : State := s.setCalls s.calls.tail

/-- `decode_cycle` (R210): a fetch error ends the cycle before any decoding (R257); a fetched word is
decoded and its class drives the ports. -/
def decodeCycle (pc : Word) (s : State) : Outcome :=
  match fetch s.source pc with
  | .error e => raise s e
  | .ok instr => exec (decodeWord instr) s

/-- `fetch` as the caller invokes it (R120). -/
def callFetch (pc : Word) (s : State) : Outcome :=
  match fetch s.source pc with
  | .error e => raise s e
  | .ok instr => finish s (.word instr)

/-- One operation of the caller. -/
def perform (c : Call) (s : State) : Outcome :=
  match c with
  | .reset => finish (resetRegisters s) .done
  | .fetch pc => callFetch (pc.eval s) s
  | .decodeFields instr => finish s (.fields (decodeFields instr))
  | .decodeImmediate instr opcode => finish s (.immediate (decodeImmediate instr opcode))
  | .decodeCycle pc => decodeCycle (pc.eval s) s
  | .dump => finish s (.text (dumpText s))
  | .linkSource image => finish (s.setSource (some (Memory.ofBytes image))) .done
  | .linkData image => finish (s.setDataSource (some (Memory.ofBytes image))) .done
  | .link i => finish s (.handle (linkHandle i))
  | .readReg r => finish s (.value (readX s r.slot))
  | .writeReg r v => finish (writeX s r.slot (truncate v)) .done
  | .readPc => finish s (.value s.pc)
  | .writePc v => finish (s.setPc (truncate v)) .done

/-- The state with a word of `nbits` table bits stored where the next step fetches, and a decode
cycle at the pc as the caller's next operation (log 7). -/
def placeAtFetch (s : State) (nbits w : Nat) : State :=
  let m := s.source.getD Memory.empty
  let placed := s.setSource (some (m.placeWord (fetchAddr s.pc).toNat (tableWord nbits w)))
  if nextCall s = .decodeCycle .register then placed
  else placed.setCalls (.decodeCycle .register :: s.calls)

end Sys2Proof.Machine
end

