-- ==== Sys2Proof/Machine/Step.lean ====
section
/-! DEFINITION. One step: the caller invokes its next operation (spec/60_exceptions.md R265: "A model
has one agent, the caller; its steps are the five operations ... and its own writes"). -/

namespace Sys2Proof.Machine

/-- One operation of the caller, from invocation to return. -/
def step (s : State) : Host.Outcome State Fault Refusal := perform (nextCall s) (dropCall s)

/-- The state whose very next step fetches and runs the instruction with the bits `w`. -/
def State.withFetchWord (s : State) (nbits w : Nat) : State := placeAtFetch s nbits w

end Sys2Proof.Machine
end

