-- ==== Sys2Proof/Safety.lean ====
section
/-! DEFINITION. What holds of every state a run reaches, and when a step cannot end in an error. -/

namespace Sys2Proof.Machine

/-- A byte sequence that may be linked is in canonical form. -/
def linkWf : Option Memory → Bool
  | none => true
  | some m => m.wf

/-- The model's invariant: the cell behind register 0 holds 0 (R22) and both linked byte sequences
are in canonical form. -/
structure State.Inv (s : State) : Prop where
  zeroCell : s.regs[0] = 0#32
  source   : linkWf s.source = true
  data     : linkWf s.dataSource = true

/-- A fetch at `pc` returns a word: a source is linked and holds four bytes at the aligned address
(R57). -/
def State.Fetchable (s : State) (pc : Word) : Prop :=
  ∃ m, s.source = some m ∧ (fetchAddr pc).toNat + 4 ≤ m.size

end Sys2Proof.Machine
end

