-- ==== Sys2Proof/Certificates/Slice0/Obligations.lean ====
section
/-! DEFINITION. The statements for the provers. R<n> are the numbered rules of spec/. The field
`output`, where a statement reads the ports, is the model's own (log 1); so are the caller's list of
calls (log 2) and what it does on an error (log 3). -/

open Sys2Proof Sys2Proof.Machine

/-! ## Encoding -/

/-- Words written out bit by bit from the layouts of R83 to R88 decode to what they stand for: `sub
r1, r2, r3` (R153), `lui`, `auipc`, `jal`, `jalr`, `lw`, `beq`, `sw`, `addi`, `ecall` and one word of
each class that is not of 32-bit format (spec/95_test_vectors.md). -/
def Obligations.WrittenOutWordsDecode : Prop :=
  decodeWord 0b0100000_00011_00010_000_00001_0110011#32 = .sub 3 2 1 ∧
  decodeWord 0b10000011000111110011_00000_0110111#32 = .lui 0 0x831F3 ∧
  decodeWord 0b00010010001101000101_00101_0010111#32 = .auipc 5 0x12345 ∧
  decodeWord 0b1_1110011000_1_11001101_00000_1101111#32 = .jal 0 0b1_11001101_1_1110011000 ∧
  decodeWord 0b111111111111_00001_000_00000_1100111#32 = .jalr 0 0 1 0xFFF ∧
  decodeWord 0b000000000100_00010_010_00101_0000011#32 = .load 5 2 2 4 ∧
  decodeWord 0b0_100010_00000_00000_000_0111_1_1100011#32 = .branch 0 0 0 0b0_1_100010_0111 ∧
  decodeWord 0b0000000_00101_00010_010_01000_0100011#32 = .store 2 2 5 8 ∧
  decodeWord 0b111111111111_00000_000_00001_0010011#32 = .opImm 1 0 0 0xFFF ∧
  decodeWord 0b1111111_11111_11111_111_11111_0110011#32 = .op 127 31 31 7 31 ∧
  decodeWord 0b0000000_00001_00000_000_00000_1110011#32 = .opc1110011 0 1 0 0 0 ∧
  decodeWord 0x00000000#32 = .not32Low00 0 ∧
  decodeWord 0x80820001#32 = .not32Low01 0x20208000 ∧
  decodeWord 0xFFFFFFFE#32 = .not32Low10 0x3FFFFFFF ∧
  decodeWord 0xFFFFFFFF#32 = .not32Long 0x7FFFFFF

/-- Decoding the word of a well-formed instruction gives the instruction back, with every operand at
every value: no bit of an encoding is dropped. -/
def Obligations.DecodeAfterEncode : Prop :=
  ∀ i : Instr, i.wf = true → decodeWord (encode i) = i

/-- Every one of the 2^32 words is a legal input (R140): it decodes to a well-formed instruction, and
that instruction's encoding is the word, no bit lost. -/
def Obligations.EncodeAfterDecode : Prop :=
  ∀ w : Word, (decodeWord w).wf = true ∧ encode (decodeWord w) = w

/-- Four bytes in memory order, little-endian (R54), decode to the instruction they were encoded from
and the rest is left alone; fewer than four bytes are rejected by name (R57: no partial word). -/
def Obligations.BytesDecodeLittleEndian : Prop :=
  (∀ (i : Instr) (rest : List Byte), i.wf = true →
    decode (bytesOfWord (encode i) ++ rest) = .ok (i, rest)) ∧
  (∀ bytes : List Byte, bytes.length < 4 → decode bytes = .error (.shortRead bytes.length))

/-- Of the rows of spec/opcode_table.json a word fits exactly the row of its instruction, except that
a word of SUB's row fits OP's row as well (R96, R220). -/
def Obligations.EveryWordFitsExactlyItsRow : Prop :=
  ∀ (w : Word) (r : Row), r ∈ opcodeTable →
    (r.fits w = true ↔
      r = rowOf (decodeWord w) ∨ (r = opRow ∧ ∃ rs2 rs1 rd, decodeWord w = .sub rs2 rs1 rd))

/-- R105 and R184.4: each reconstruction undoes its encoder on the format's range, each encoder undoes
its reconstruction on every word, and an encoder drops the bits its format does not encode. -/
def Obligations.ImmediateEncodersRoundTrip : Prop :=
  (∀ (imm : Word) (rd : RegIndex) (op : Opcode),
    (imm.toNat % 0x1000 = 0 → immU (encU imm rd op) = imm) ∧
    (imm.toNat % 2 = 0 ∧ imm.toNat ≤ 0x1FFFFE → immJ (encJ imm rd op) = imm) ∧
    encU imm rd op = encU (imm &&& 0xFFFFF000#32) rd op ∧
    encJ imm rd op = encJ (imm &&& 0x001FFFFE#32) rd op) ∧
  (∀ (imm : Word) (rs2 rs1 rd : RegIndex) (funct3 : Funct3) (op : Opcode),
    (imm.toNat ≤ 0xFFF → immI (encI imm rs1 funct3 rd op) = imm) ∧
    (imm.toNat % 2 = 0 ∧ imm.toNat ≤ 0x1FFE → immB (encB imm rs2 rs1 funct3 op) = imm) ∧
    (imm.toNat ≤ 0xFFF → immS (encS imm rs2 rs1 funct3 op) = imm) ∧
    encI imm rs1 funct3 rd op = encI (imm &&& 0x00000FFF#32) rs1 funct3 rd op ∧
    encB imm rs2 rs1 funct3 op = encB (imm &&& 0x00001FFE#32) rs2 rs1 funct3 op ∧
    encS imm rs2 rs1 funct3 op = encS (imm &&& 0x00000FFF#32) rs2 rs1 funct3 op) ∧
  (∀ w : Word,
    let op := w.extractLsb' 0 7
    let rd := w.extractLsb' 7 5
    let funct3 := w.extractLsb' 12 3
    let rs1 := w.extractLsb' 15 5
    let rs2 := w.extractLsb' 20 5
    encU (immU w) rd op = w ∧ encJ (immJ w) rd op = w ∧ encI (immI w) rs1 funct3 rd op = w ∧
    encB (immB w) rs2 rs1 funct3 op = w ∧ encS (immS w) rs2 rs1 funct3 op = w)

/-! ## The field decoder -/

/-- R142: the two-part test, as the rule writes it with masks and as its slices; nothing but
instr[4:0] decides. -/
def Obligations.SuccessIsTheTwoPartTest : Prop :=
  ∀ w : Word,
    (let opcode := w &&& 0x7F#32
     (decodeFields w).success = true ↔
      opcode &&& 0b11#32 = 0b11#32 ∧ opcode &&& 0b11100#32 ≠ 0b11100#32) ∧
    ((decodeFields w).success = true ↔
      w.extractLsb' 0 2 = 0b11#2 ∧ w.extractLsb' 2 3 ≠ 0b111#3) ∧
    ∀ v : Word, v.extractLsb' 0 5 = w.extractLsb' 0 5 →
      (decodeFields v).success = (decodeFields w).success

/-- The enumeration the spec marks as its own inference (the last sentence of R142): `success` is 1 for
exactly seven values of instr[4:0]. -/
def Obligations.SuccessForExactlySevenLowPatterns : Prop :=
  ∀ w : Word,
    (decodeFields w).success = true ↔
      w.extractLsb' 0 5 ∈ [0b00011#5, 0b00111#5, 0b01011#5, 0b01111#5, 0b10011#5, 0b10111#5,
        0b11011#5]

/-- R143: on a failed classification all six numeric outputs are 0, and nothing is raised: the
instruction of the word ends in a next state that shows these outputs. -/
def Obligations.FailedClassificationGivesZeroes : Prop :=
  ∀ w : Word, (decodeFields w).success = false →
    decodeFields w = { opcode := 0, funct3 := 0, funct7 := 0, rs1 := 0, rs2 := 0, rd := 0,
                       success := false } ∧
    ∃ imm, ∀ s : State, exec (decodeWord w) s = .next (s.setOutput (.decoded
      { fields := { opcode := 0, funct3 := 0, funct7 := 0, rs1 := 0, rs2 := 0, rd := 0,
                    success := false }
        imm }))

/-- R144 to R149: on success each output is its slice of the word. -/
def Obligations.SuccessfulFieldsAreSlices : Prop :=
  ∀ w : Word, (decodeFields w).success = true →
    (decodeFields w).opcode = w.extractLsb' 0 7 ∧
    (decodeFields w).rd = w.extractLsb' 7 5 ∧
    (decodeFields w).funct3 = w.extractLsb' 12 3 ∧
    (decodeFields w).rs1 = w.extractLsb' 15 5 ∧
    (decodeFields w).rs2 = w.extractLsb' 20 5 ∧
    (decodeFields w).funct7 = w.extractLsb' 25 7

/-- What the spec infers from R142 (the second sentence of R144): a successful opcode ends in 11, is one
of the 28 of R96 and is never 0. -/
def Obligations.SuccessfulOpcodesAreThe28 : Prop :=
  ∀ w : Word, (decodeFields w).success = true →
    (decodeFields w).opcode.extractLsb' 0 2 = 0b11#2 ∧
    (decodeFields w).opcode ≠ 0 ∧
    (decodeFields w).opcode ∈ [0b0110111#7, 0b0010111#7, 0b1101111#7, 0b1100111#7, 0b0000011#7,
      0b1100011#7, 0b0100011#7, 0b0110011#7, 0b0010011#7,
      0b0000111#7, 0b0001011#7, 0b0001111#7, 0b0011011#7, 0b0100111#7,
      0b0101011#7, 0b0101111#7, 0b0111011#7, 0b1000011#7, 0b1000111#7, 0b1001011#7,
      0b1001111#7, 0b1010011#7, 0b1010111#7, 0b1011011#7, 0b1101011#7, 0b1110011#7,
      0b1110111#7, 0b1111011#7]

/-- The spec's inferences R154.3, R154.5, R154.6: the fields of a successful word reassemble it;
`success` is 1 exactly when `opcode` is not 0; and the high bits count only on success. -/
def Obligations.FieldsReassembleTheWord : Prop :=
  ∀ w : Word,
    ((decodeFields w).success = true →
      encR (decodeFields w).funct7 (decodeFields w).rs2 (decodeFields w).rs1
        (decodeFields w).funct3 (decodeFields w).rd (decodeFields w).opcode = w) ∧
    ((decodeFields w).success = true ↔ (decodeFields w).opcode ≠ 0) ∧
    ∀ v : Word, v.extractLsb' 0 5 = w.extractLsb' 0 5 → (decodeFields w).success = false →
      decodeFields v = decodeFields w

/-! ## The immediate decoder -/

/-- R171, with the reconstructions R89 to R93 written from the word's bits: the opcode input alone
selects, whatever the word is, its own low bits included. -/
def Obligations.EachOpcodeSelectsItsReconstruction : Prop :=
  ∀ w : Word,
    (∀ op ∈ [0b0110111#7, 0b0010111#7], decodeImmediate w op = w &&& 0xFFFFF000#32) ∧
    decodeImmediate w 0b1101111#7 =
      (w.extractLsb' 31 1 ++ w.extractLsb' 12 8 ++ w.extractLsb' 20 1 ++ w.extractLsb' 21 10
        ++ 0b0#1).setWidth 32 ∧
    (∀ op ∈ [0b1100111#7, 0b0000011#7], decodeImmediate w op = w >>> 20) ∧
    decodeImmediate w 0b1100011#7 =
      (w.extractLsb' 31 1 ++ w.extractLsb' 7 1 ++ w.extractLsb' 25 6 ++ w.extractLsb' 8 4
        ++ 0b0#1).setWidth 32 ∧
    decodeImmediate w 0b0100011#7 =
      (w.extractLsb' 25 7).setWidth 32 <<< 5 ||| (w.extractLsb' 7 5).setWidth 32 ∧
    (∀ op : Opcode, op ∉ [0b0110111#7, 0b0010111#7, 0b1101111#7, 0b1100111#7, 0b0000011#7,
      0b1100011#7, 0b0100011#7] → decodeImmediate w op = 0)

/-- R178: for every opcode input that is no trigger the immediate is 0, whatever the word is, and
121 of the 128 opcode values are such. -/
def Obligations.NonTriggersGiveZeroImmediate : Prop :=
  (∀ (w : Word) (op : Opcode),
    op ∉ [0b0110111#7, 0b0010111#7, 0b1101111#7, 0b1100111#7, 0b0000011#7, 0b1100011#7,
      0b0100011#7] → decodeImmediate w op = 0) ∧
  ((List.range 128).filter fun k => BitVec.ofNat 7 k ∉ [0b0110111#7, 0b0010111#7, 0b1101111#7,
    0b1100111#7, 0b0000011#7, 0b1100011#7, 0b0100011#7]).length = 121

/-- The ranges the spec infers from R89 to R93 (the second sentence of R180): what the immediate can be,
opcode by opcode; nothing is sign-extended. -/
def Obligations.ImmediateRanges : Prop :=
  ∀ (w : Word) (op : Opcode),
    (op = 0b0110111#7 ∨ op = 0b0010111#7 → ∃ k, (decodeImmediate w op).toNat = k * 0x1000) ∧
    (op = 0b1101111#7 →
      (decodeImmediate w op).toNat % 2 = 0 ∧ (decodeImmediate w op).toNat ≤ 0x1FFFFE) ∧
    (op = 0b1100011#7 →
      (decodeImmediate w op).toNat % 2 = 0 ∧ (decodeImmediate w op).toNat ≤ 0x1FFE) ∧
    (op = 0b1100111#7 ∨ op = 0b0000011#7 ∨ op = 0b0100011#7 →
      (decodeImmediate w op).toNat ≤ 0xFFF) ∧
    (op ∉ [0b0110111#7, 0b0010111#7, 0b1101111#7, 0b1100111#7, 0b0000011#7, 0b1100011#7,
      0b0100011#7] → decodeImmediate w op = 0)

/-- The spec's inference R183: the four terms of R174 and of R176 share no bit position, so their sum is their bitwise or,
and both are what the J and B datapaths put out, in 21 and 13 bits. -/
def Obligations.ImmediateSumsNeverCarry : Prop :=
  ∀ w : Word,
    (let bit20 := (w.extractLsb' 31 1).setWidth 32 <<< 20
     let bits19_12 := (w.extractLsb' 12 8).setWidth 32 <<< 12
     let bit11 := (w.extractLsb' 20 1).setWidth 32 <<< 11
     let bits10_1 := (w.extractLsb' 21 10).setWidth 32 <<< 1
     decodeImmediate w 0b1101111#7 = bit20 + bits19_12 + bit11 + bits10_1 ∧
     decodeImmediate w 0b1101111#7 = bit20 ||| bits19_12 ||| bit11 ||| bits10_1 ∧
     (decodeImmediate w 0b1101111#7).toNat < 2 ^ 21) ∧
    (let bit12 := (w.extractLsb' 31 1).setWidth 32 <<< 12
     let bit11 := (w.extractLsb' 7 1).setWidth 32 <<< 11
     let bits10_5 := (w.extractLsb' 25 6).setWidth 32 <<< 5
     let bits4_1 := (w.extractLsb' 8 4).setWidth 32 <<< 1
     decodeImmediate w 0b1100011#7 = bit12 + bit11 + bits10_5 + bits4_1 ∧
     decodeImmediate w 0b1100011#7 = bit12 ||| bit11 ||| bits10_5 ||| bits4_1 ∧
     (decodeImmediate w 0b1100011#7).toNat < 2 ^ 13)

/-- The spec's inference R226 (and R179, its last clause): zeroing the opcode on failure cannot hide an
immediate. -/
def Obligations.ZeroedOpcodeHidesNoImmediate : Prop :=
  ∀ w : Word,
    (w.extractLsb' 0 7 ∈ [0b0110111#7, 0b0010111#7, 0b1101111#7, 0b1100111#7, 0b0000011#7,
      0b1100011#7, 0b0100011#7] → (decodeFields w).success = true) ∧
    decodeImmediate w (decodeFields w).opcode = decodeImmediate w (w.extractLsb' 0 7) ∧
    ((decodeBlock w).fields.success = false → (decodeBlock w).imm = 0)

/-- The spec's inferences R227 and R184.6: in each format the fields whose bits the immediate uses show those bits. -/
def Obligations.FieldsShowImmediateBits : Prop :=
  ∀ w : Word,
    let f := (decodeBlock w).fields
    let imm := (decodeBlock w).imm
    let op := w.extractLsb' 0 7
    (op = 0b0110111#7 ∨ op = 0b0010111#7 →
      f.funct3 = imm.extractLsb' 12 3 ∧ f.rs1 = imm.extractLsb' 15 5 ∧
      f.rs2 = imm.extractLsb' 20 5 ∧ f.funct7 = imm.extractLsb' 25 7) ∧
    (op = 0b1101111#7 →
      f.funct3 = imm.extractLsb' 12 3 ∧ f.rs1 = imm.extractLsb' 15 5 ∧
      f.rs2 = imm.extractLsb' 1 4 ++ imm.extractLsb' 11 1 ∧
      f.funct7 = imm.extractLsb' 20 1 ++ imm.extractLsb' 5 6) ∧
    (op = 0b1100111#7 ∨ op = 0b0000011#7 →
      f.rs2 = imm.extractLsb' 0 5 ∧ f.funct7 = imm.extractLsb' 5 7 ∧
      imm = (f.funct7 ++ f.rs2).setWidth 32) ∧
    (op = 0b1100011#7 →
      f.rd = imm.extractLsb' 1 4 ++ imm.extractLsb' 11 1 ∧
      f.funct7 = imm.extractLsb' 12 1 ++ imm.extractLsb' 5 6) ∧
    (op = 0b0100011#7 →
      f.rd = imm.extractLsb' 0 5 ∧ f.funct7 = imm.extractLsb' 5 7 ∧
      imm = (f.funct7 ++ f.rd).setWidth 32)

/-! ## What each class of word does

Each answers a next state for every operand and every state, and says all of it: the state is as
before but for the ports, which show the rule's outputs, written with the slices of the word. -/

/-- R211: LUI. -/
def Obligations.LuiOutputs : Prop :=
  ∀ (rd : RegIndex) (imm : BitVec 20) (s : State),
    let w := encode (.lui rd imm)
    w.extractLsb' 0 7 = 0b0110111#7 ∧
    exec (.lui rd imm) s = .next (s.setOutput (.decoded
    { fields :=
        { opcode := 0b0110111#7, funct3 := w.extractLsb' 12 3, funct7 := w.extractLsb' 25 7,
          rs1 := w.extractLsb' 15 5, rs2 := w.extractLsb' 20 5, rd := w.extractLsb' 7 5,
          success := true }
      imm := immU w })) ∧
    immU w = w &&& 0xFFFFF000#32

/-- R212: AUIPC; the pc is not added, whatever it is. -/
def Obligations.AuipcOutputs : Prop :=
  ∀ (rd : RegIndex) (imm : BitVec 20) (s : State),
    let w := encode (.auipc rd imm)
    w.extractLsb' 0 7 = 0b0010111#7 ∧
    exec (.auipc rd imm) s = .next (s.setOutput (.decoded
    { fields :=
        { opcode := 0b0010111#7, funct3 := w.extractLsb' 12 3, funct7 := w.extractLsb' 25 7,
          rs1 := w.extractLsb' 15 5, rs2 := w.extractLsb' 20 5, rd := w.extractLsb' 7 5,
          success := true }
      imm := immU w })) ∧
    immU w = w &&& 0xFFFFF000#32

/-- R213: JAL; the immediate is even and at most 0x1FFFFE, and no link value is written. -/
def Obligations.JalOutputs : Prop :=
  ∀ (rd : RegIndex) (imm : BitVec 20) (s : State),
    let w := encode (.jal rd imm)
    w.extractLsb' 0 7 = 0b1101111#7 ∧
    exec (.jal rd imm) s = .next (s.setOutput (.decoded
    { fields :=
        { opcode := 0b1101111#7, funct3 := w.extractLsb' 12 3, funct7 := w.extractLsb' 25 7,
          rs1 := w.extractLsb' 15 5, rs2 := w.extractLsb' 20 5, rd := w.extractLsb' 7 5,
          success := true }
      imm := immJ w })) ∧
    (immJ w).toNat ≤ 0x1FFFFE ∧ (immJ w).toNat % 2 = 0

/-- R214: JALR, for every funct3. -/
def Obligations.JalrOutputs : Prop :=
  ∀ (rd : RegIndex) (funct3 : Funct3) (rs1 : RegIndex) (imm : BitVec 12) (s : State),
    let w := encode (.jalr rd funct3 rs1 imm)
    w.extractLsb' 0 7 = 0b1100111#7 ∧
    exec (.jalr rd funct3 rs1 imm) s = .next (s.setOutput (.decoded
    { fields :=
        { opcode := 0b1100111#7, funct3 := w.extractLsb' 12 3, funct7 := w.extractLsb' 25 7,
          rs1 := w.extractLsb' 15 5, rs2 := w.extractLsb' 20 5, rd := w.extractLsb' 7 5,
          success := true }
      imm := (w.extractLsb' 20 12).setWidth 32 }))

/-- R215: loads, for every funct3; no address is formed and nothing is loaded. -/
def Obligations.LoadOutputs : Prop :=
  ∀ (rd : RegIndex) (funct3 : Funct3) (rs1 : RegIndex) (imm : BitVec 12) (s : State),
    let w := encode (.load rd funct3 rs1 imm)
    w.extractLsb' 0 7 = 0b0000011#7 ∧
    exec (.load rd funct3 rs1 imm) s = .next (s.setOutput (.decoded
    { fields :=
        { opcode := 0b0000011#7, funct3 := w.extractLsb' 12 3, funct7 := w.extractLsb' 25 7,
          rs1 := w.extractLsb' 15 5, rs2 := w.extractLsb' 20 5, rd := w.extractLsb' 7 5,
          success := true }
      imm := (w.extractLsb' 20 12).setWidth 32 }))

/-- R216: branches, for every funct3; the immediate is even and at most 0x1FFE, and no branch is taken. -/
def Obligations.BranchOutputs : Prop :=
  ∀ (funct3 : Funct3) (rs1 rs2 : RegIndex) (imm : BitVec 12) (s : State),
    let w := encode (.branch funct3 rs1 rs2 imm)
    w.extractLsb' 0 7 = 0b1100011#7 ∧
    exec (.branch funct3 rs1 rs2 imm) s = .next (s.setOutput (.decoded
    { fields :=
        { opcode := 0b1100011#7, funct3 := w.extractLsb' 12 3, funct7 := w.extractLsb' 25 7,
          rs1 := w.extractLsb' 15 5, rs2 := w.extractLsb' 20 5, rd := w.extractLsb' 7 5,
          success := true }
      imm := immB w })) ∧
    (immB w).toNat ≤ 0x1FFE ∧ (immB w).toNat % 2 = 0

/-- R217: stores, for every funct3; nothing is stored. -/
def Obligations.StoreOutputs : Prop :=
  ∀ (funct3 : Funct3) (rs1 rs2 : RegIndex) (imm : BitVec 12) (s : State),
    let w := encode (.store funct3 rs1 rs2 imm)
    w.extractLsb' 0 7 = 0b0100011#7 ∧
    exec (.store funct3 rs1 rs2 imm) s = .next (s.setOutput (.decoded
    { fields :=
        { opcode := 0b0100011#7, funct3 := w.extractLsb' 12 3, funct7 := w.extractLsb' 25 7,
          rs1 := w.extractLsb' 15 5, rs2 := w.extractLsb' 20 5, rd := w.extractLsb' 7 5,
          success := true }
      imm := (w.extractLsb' 25 7 ++ w.extractLsb' 7 5).setWidth 32 }))

/-- R218: ALU-immediate; instr[31:20] shows in funct7 and rs2 only and the immediate is 0. -/
def Obligations.OpImmOutputs : Prop :=
  ∀ (rd : RegIndex) (funct3 : Funct3) (rs1 : RegIndex) (hi : BitVec 12) (s : State),
    let w := encode (.opImm rd funct3 rs1 hi)
    w.extractLsb' 0 7 = 0b0010011#7 ∧
    exec (.opImm rd funct3 rs1 hi) s = .next (s.setOutput (.decoded
    { fields :=
        { opcode := 0b0010011#7, funct3 := w.extractLsb' 12 3, funct7 := w.extractLsb' 25 7,
          rs1 := w.extractLsb' 15 5, rs2 := w.extractLsb' 20 5, rd := w.extractLsb' 7 5,
          success := true }
      imm := 0#32 })) ∧
    w.extractLsb' 25 7 ++ w.extractLsb' 20 5 = w.extractLsb' 20 12

/-- R219: register-register, for every funct7 and funct3; no register is read or written. -/
def Obligations.OpOutputs : Prop :=
  ∀ (funct7 : Funct7) (rs2 rs1 : RegIndex) (funct3 : Funct3) (rd : RegIndex) (s : State),
    let w := encode (.op funct7 rs2 rs1 funct3 rd)
    w.extractLsb' 0 7 = 0b0110011#7 ∧
    exec (.op funct7 rs2 rs1 funct3 rd) s = .next (s.setOutput (.decoded
    { fields :=
        { opcode := 0b0110011#7, funct3 := w.extractLsb' 12 3, funct7 := w.extractLsb' 25 7,
          rs1 := w.extractLsb' 15 5, rs2 := w.extractLsb' 20 5, rd := w.extractLsb' 7 5,
          success := true }
      imm := 0#32 }))

/-- R220: `sub`, with funct7 0100000 and funct3 000: nothing more than its class. -/
def Obligations.SubOutputs : Prop :=
  ∀ (rs2 rs1 rd : RegIndex) (s : State),
    let w := encode (.sub rs2 rs1 rd)
    w.extractLsb' 0 7 = 0b0110011#7 ∧
    exec (.sub rs2 rs1 rd) s = .next (s.setOutput (.decoded
    { fields :=
        { opcode := 0b0110011#7, funct3 := w.extractLsb' 12 3, funct7 := w.extractLsb' 25 7,
          rs1 := w.extractLsb' 15 5, rs2 := w.extractLsb' 20 5, rd := w.extractLsb' 7 5,
          success := true }
      imm := 0#32 })) ∧
    w.extractLsb' 25 7 = 0b0100000#7 ∧ w.extractLsb' 12 3 = 0b000#3

/-- R221: the 19 unnamed opcodes OPC_0000111 to OPC_1111011, each named here with its opcode: fields
out, immediate 0. -/
def Obligations.UnnamedOpcodeOutputs : Prop :=
  ∀ (funct7 : Funct7) (rs2 rs1 : RegIndex) (funct3 : Funct3) (rd : RegIndex) (s : State),
    ∀ p ∈ [
      (0b0000111#7, Instr.opc0000111 funct7 rs2 rs1 funct3 rd),
      (0b0001011#7, Instr.opc0001011 funct7 rs2 rs1 funct3 rd),
      (0b0001111#7, Instr.opc0001111 funct7 rs2 rs1 funct3 rd),
      (0b0011011#7, Instr.opc0011011 funct7 rs2 rs1 funct3 rd),
      (0b0100111#7, Instr.opc0100111 funct7 rs2 rs1 funct3 rd),
      (0b0101011#7, Instr.opc0101011 funct7 rs2 rs1 funct3 rd),
      (0b0101111#7, Instr.opc0101111 funct7 rs2 rs1 funct3 rd),
      (0b0111011#7, Instr.opc0111011 funct7 rs2 rs1 funct3 rd),
      (0b1000011#7, Instr.opc1000011 funct7 rs2 rs1 funct3 rd),
      (0b1000111#7, Instr.opc1000111 funct7 rs2 rs1 funct3 rd),
      (0b1001011#7, Instr.opc1001011 funct7 rs2 rs1 funct3 rd),
      (0b1001111#7, Instr.opc1001111 funct7 rs2 rs1 funct3 rd),
      (0b1010011#7, Instr.opc1010011 funct7 rs2 rs1 funct3 rd),
      (0b1010111#7, Instr.opc1010111 funct7 rs2 rs1 funct3 rd),
      (0b1011011#7, Instr.opc1011011 funct7 rs2 rs1 funct3 rd),
      (0b1101011#7, Instr.opc1101011 funct7 rs2 rs1 funct3 rd),
      (0b1110011#7, Instr.opc1110011 funct7 rs2 rs1 funct3 rd),
      (0b1110111#7, Instr.opc1110111 funct7 rs2 rs1 funct3 rd),
      (0b1111011#7, Instr.opc1111011 funct7 rs2 rs1 funct3 rd)],
    let w := encode p.2
    w.extractLsb' 0 7 = p.1 ∧
    exec p.2 s = .next (s.setOutput (.decoded
    { fields :=
        { opcode := p.1, funct3 := w.extractLsb' 12 3, funct7 := w.extractLsb' 25 7,
          rs1 := w.extractLsb' 15 5, rs2 := w.extractLsb' 20 5, rd := w.extractLsb' 7 5,
          success := true }
      imm := 0#32 }))

/-- R222 to R225: the four patterns that are not of 32-bit format put out zeroes, for all the bits
they leave free. -/
def Obligations.Not32BitOutputs : Prop :=
  ∀ (rest : BitVec 30) (long : BitVec 27) (s : State),
    ∀ i ∈ [Instr.not32Low00 rest, Instr.not32Low01 rest, Instr.not32Low10 rest,
        Instr.not32Long long],
    ((encode (.not32Low00 rest)).extractLsb' 0 2 = 0b00#2 ∧
      (encode (.not32Low01 rest)).extractLsb' 0 2 = 0b01#2 ∧
      (encode (.not32Low10 rest)).extractLsb' 0 2 = 0b10#2 ∧
      (encode (.not32Long long)).extractLsb' 0 5 = 0b11111#5) ∧
    exec i s = .next (s.setOutput (.decoded
      { fields := { opcode := 0, funct3 := 0, funct7 := 0, rs1 := 0, rs2 := 0, rd := 0,
                    success := false }
        imm := 0 }))

/-- R228: every instruction completes in every state; what it puts out depends on nothing but the
instruction; and registers, pc, both linked byte sequences with every byte, and the caller's own
business are as before. -/
def Obligations.NothingIsExecuted : Prop :=
  ∀ i : Instr, ∃ d : Decoded, ∀ s : State, ∃ t : State, exec i s = .next t ∧
    t.output = some (.decoded d) ∧
    (∀ r, readX t r = readX s r) ∧ t.regs = s.regs ∧ t.pc = s.pc ∧
    t.source = s.source ∧ t.dataSource = s.dataSource ∧
    (∀ a, t.source.map (·.byte a) = s.source.map (·.byte a)) ∧
    (∀ a, t.dataSource.map (·.byte a) = s.dataSource.map (·.byte a)) ∧
    t.calls = s.calls ∧ t.onError = s.onError

/-- The instruction-by-instruction machine and the block written from the words' bits (R150, R171,
R210) agree on all 2^32 words. -/
def Obligations.InstructionsAgreeWithTheBlock : Prop :=
  ∀ (w : Word) (s : State),
    exec (decodeWord w) s = .next (s.setOutput (.decoded (decodeBlock w)))

/-! ## One step -/

/-- When the caller's next operation is a decode cycle and the four bytes at the aligned address
decode to a well-formed instruction, the step is that instruction's `exec`, at the state with the
operation taken off the caller's list. The pc does not move (R29). -/
def Obligations.StepRunsTheDecodedInstruction : Prop :=
  ∀ (s : State) (pc : PcArg) (m : Memory) (i : Instr) (a : Nat),
    nextCall s = .decodeCycle pc → s.source = some m → a = (fetchAddr (pc.eval s)).toNat →
    a + 4 ≤ m.size → i.wf = true →
    decode [m.byte a, m.byte (a + 1), m.byte (a + 2), m.byte (a + 3)] = .ok (i, []) →
    step s = exec i (dropCall s)

/-- A state with nothing noted on the caller's list runs a decode cycle at the pc register, and the
next operation on the list is the one performed (the model's choice, log 2). -/
def Obligations.NextOperationIsTheFirstNoted : Prop :=
  ∀ s : State,
    (s.calls = [] → nextCall s = .decodeCycle .register ∧ (dropCall s) = s) ∧
    (∀ c rest, s.calls = c :: rest → nextCall s = c ∧ dropCall s = s.setCalls rest) ∧
    step s = perform (nextCall s) (dropCall s)

/-- The host's placement of a word: the very next step runs exactly the instruction of that word, and
registers, pc, data source and the caller's policy are as they were (log 7). -/
def Obligations.PlacedWordRunsNext : Prop :=
  ∀ (s : State) (nbits w : Nat), linkWf s.source = true →
    step (s.withFetchWord nbits w)
      = exec (decodeWord (tableWord nbits w)) (dropCall (s.withFetchWord nbits w)) ∧
    (s.withFetchWord nbits w).regs = s.regs ∧ (s.withFetchWord nbits w).pc = s.pc ∧
    (s.withFetchWord nbits w).dataSource = s.dataSource ∧
    (s.withFetchWord nbits w).onError = s.onError

/-- R210: a decode cycle is a fetch, then the block on the fetched word; a fetch error ends it before
any decoding (R257), in the way of log 3; it changes no state of the core. -/
def Obligations.DecodeCycleIsFetchThenBlock : Prop :=
  ∀ (s : State) (pc : PcArg), nextCall s = .decodeCycle pc →
    (∀ w, fetch s.source (pc.eval s) = .ok w →
      step s = .next ((dropCall s).setOutput (.decoded
        { fields := decodeFields w, imm := decodeImmediate w (decodeFields w).opcode }))) ∧
    (∀ e, fetch s.source (pc.eval s) = .error e → step s = raise (dropCall s) e)

/-- Idempotence (R58, R154.1, R233): with nothing noted by the caller, a step that went on can be
repeated and gives the same state again; in particular the pc is not advanced. -/
def Obligations.RepeatedDecodeCycleIsIdempotent : Prop :=
  ∀ s t : State, s.calls = [] → step s = .next t → step t = .next t

/-- R33, and the spec's inference R127: under the same policy on errors (the model's own field, log 3)
what a decode cycle puts out depends on the linked source and the fetch address alone. The two low
bits of the pc, the registers, the data source and earlier outputs do not reach it. -/
def Obligations.DecodeCycleSeesOnlySourceAndPc : Prop :=
  ∀ (s s' : State) (pc pc' : PcArg), nextCall s = .decodeCycle pc → nextCall s' = .decodeCycle pc' →
    s.source = s'.source → fetchAddr (pc.eval s) = fetchAddr (pc'.eval s') →
    s.onError = s'.onError →
    (∀ t, step s = .next t → ∃ t', step s' = .next t' ∧ t'.output = t.output) ∧
    (∀ e, step s = .fault e → step s' = .fault e)

/-! ## Fetch -/

/-- R121: the address is the pc with its two low bits cleared; NoSource, OutOfBounds(addr) or the
word whose bytes, low first, are the source's four bytes from there, which is also the sum of the
shifted bytes. -/
def Obligations.FetchReadsAlignedLittleEndian : Prop :=
  ∀ (source : Option Memory) (pc : Word),
    let addr := pc &&& 0xFFFFFFFC#32
    addr.toNat = pc.toNat / 4 * 4 ∧
    (source = none → fetch source pc = .error .noSource) ∧
    ∀ m, source = some m →
      (m.size < addr.toNat + 4 → fetch source pc = .error (.outOfBounds addr)) ∧
      (addr.toNat + 4 ≤ m.size → ∃ w, fetch source pc = .ok w ∧
        w.extractLsb' 0 8 = m.byte addr.toNat ∧
        w.extractLsb' 8 8 = m.byte (addr.toNat + 1) ∧
        w.extractLsb' 16 8 = m.byte (addr.toNat + 2) ∧
        w.extractLsb' 24 8 = m.byte (addr.toNat + 3) ∧
        w = (m.byte addr.toNat).setWidth 32 + ((m.byte (addr.toNat + 1)).setWidth 32 <<< 8)
          + ((m.byte (addr.toNat + 2)).setWidth 32 <<< 16)
          + ((m.byte (addr.toNat + 3)).setWidth 32 <<< 24))

/-- The spec's inference R127: a fetch depends on the pc only through pc[31:2]. -/
def Obligations.FetchIgnoresLowPcBits : Prop :=
  ∀ (source : Option Memory) (pc pc' : Word), pc.extractLsb' 2 30 = pc'.extractLsb' 2 30 →
    fetch source pc = fetch source pc'

/-- R120, R122: a fetch that finds its word hands it back, unchanged whatever its class, and writes
nothing. -/
def Obligations.FetchCallHandsBackTheWord : Prop :=
  ∀ (s : State) (pc : PcArg) (w : Word), nextCall s = .fetch pc →
    fetch s.source (pc.eval s) = .ok w →
    step s = .next ((dropCall s).setOutput (.word w))

/-- The model's choice that linking an image replaces the earlier one whole (log 15), with the bytes read
at their offsets as R50, R51 and R57 say: the very next fetch reads the image's bytes and nothing past
its end. -/
def Obligations.LinkedImageIsFetched : Prop :=
  ∀ (s : State) (image : List Byte), ∃ t, perform (.linkSource image) s = .next t ∧
    ∀ pc : Word,
      let a := (fetchAddr pc).toNat
      (∀ h : a + 4 ≤ image.length,
        fetch t.source pc = .ok (wordOfBytes image[a] image[a + 1] image[a + 2] image[a + 3])) ∧
      (image.length < a + 4 → fetch t.source pc = .error (.outOfBounds (fetchAddr pc)))

/-- R251, R252, R258, R259: an error of a fetch or of a decode cycle changes no state. A caller that
stops ends the run with it; one that goes on holds the error and its next operation runs (log 3). -/
def Obligations.FetchErrorChangesNothing : Prop :=
  ∀ (s : State) (pc : PcArg) (e : Fault),
    nextCall s = .fetch pc ∨ nextCall s = .decodeCycle pc →
    fetch s.source (pc.eval s) = .error e →
    (e = .noSource ∧ s.source = none ∨
      e = .outOfBounds (fetchAddr (pc.eval s)) ∧ s.source ≠ none) ∧
    (s.onError = .stop → step s = .fault e) ∧
    (s.onError = .goOn → step s = .next ((dropCall s).setOutput (.error e)))

/-- R266, R257, with the model's two policies of a caller on an error (log 3): a step never refuses; it
faults only by a fetch or a decode cycle whose fetch raises, and it goes on in every other case, so
wherever a word can be fetched it goes on. -/
def Obligations.OnlyFetchErrorsStop : Prop :=
  ∀ s : State,
    (∀ r, step s ≠ .refused r) ∧
    (∀ e, step s = .fault e → s.onError = .stop ∧ ∃ pc,
      (nextCall s = .fetch pc ∨ nextCall s = .decodeCycle pc) ∧
      fetch s.source (pc.eval s) = .error e) ∧
    (s.onError = .goOn → ∃ t, step s = .next t) ∧
    (∀ pc, nextCall s = .fetch pc ∨ nextCall s = .decodeCycle pc →
      s.Fetchable (pc.eval s) → ∃ t, step s = .next t)

/-! ## Registers, pc, reset, dump -/

/-- R22: through an index, a handle or a name, register 0 reads 0 and a write of it is discarded. -/
def Obligations.RegisterZeroReadsZero : Prop :=
  ∀ (s : State) (r : RegRef), r.slot = 0 →
    perform (.readReg r) s = .next (s.setOutput (.value 0)) ∧
    ∀ v, perform (.writeReg r v) s = .next (s.setOutput .done)

/-- R24: a write of any other register stores the value modulo 2^32, a read returns it, and nothing
else changes: no other register, not the pc, not a source. -/
def Obligations.RegisterWriteTruncates : Prop :=
  ∀ (s : State) (r : RegRef) (v : Nat), r.slot ≠ 0 → ∃ t, perform (.writeReg r v) s = .next t ∧
    (readX t r.slot).toNat = v % 2 ^ 32 ∧
    perform (.readReg r) t = .next (t.setOutput (.value (BitVec.ofNat 32 v))) ∧
    (∀ j, j ≠ r.slot → readX t j = readX s j) ∧
    t.pc = s.pc ∧ t.source = s.source ∧ t.dataSource = s.dataSource ∧ t.calls = s.calls ∧
    t.onError = s.onError

/-- R25: a handle returned by `link(i)` and the index i are the same storage: what is written through
either is read through the other, for all indices (register 0 reading 0 by R22). -/
def Obligations.HandleSharesStorage : Prop :=
  ∀ (s : State) (i : RegIndex) (v : Nat), ∃ h : Handle,
    perform (.link i) s = .next (s.setOutput (.handle h)) ∧
    (∃ t, perform (.writeReg (.handle h) v) s = .next t ∧ perform (.readReg (.index i)) t
      = .next (t.setOutput (.value (if i = 0 then 0 else BitVec.ofNat 32 v)))) ∧
    (∃ t, perform (.writeReg (.index i) v) s = .next t ∧ perform (.readReg (.handle h)) t
      = .next (t.setOutput (.value (if i = 0 then 0 else BitVec.ofNat 32 v))))

/-- R23: the architectural names are aliases of indices 0 to 4. -/
def Obligations.NamesAreAliasesOfIndices : Prop :=
  ∀ (s : State) (v : Nat),
    ∀ p ∈ [(RegName.zero, 0#5), (RegName.returnAddress, 1#5), (RegName.stackPointer, 2#5),
        (RegName.globalPointer, 3#5), (RegName.threadPointer, 4#5)],
      perform (.readReg (.named p.1)) s = perform (.readReg (.index p.2)) s ∧
      perform (.writeReg (.named p.1) v) s = perform (.writeReg (.index p.2) v) s

/-- R280: `reset()` zeroes every register and the pc, touches no link and no byte of a source, always
succeeds, and two in a row equal one; construction has the same effect on the values. -/
def Obligations.ResetZeroesRegistersAndPc : Prop :=
  (∀ s : State, ∃ t, perform .reset s = .next t ∧ (∀ i, readX t i = 0) ∧ t.pc = 0 ∧
    t.source = s.source ∧ t.dataSource = s.dataSource ∧ t.calls = s.calls ∧
    t.onError = s.onError ∧ perform .reset t = .next t ∧
    ∀ i v, ∃ u, perform (.writeReg (.handle (linkHandle i)) v) t = .next u ∧
      readX u i = if i = 0 then 0 else BitVec.ofNat 32 v) ∧
  (∀ i, readX State.reset i = 0) ∧ State.reset.pc = 0

/-- R281: after construction every register and the pc are 0, no instruction source is linked, and
the first fetch is at address 0. -/
def Obligations.ConstructionValues : Prop :=
  (∀ i, readX State.reset i = 0) ∧ State.reset.pc = 0 ∧ State.reset.source = none ∧
  fetchAddr State.reset.pc = 0

/-- R41: the dump has 33 lines of eight hex digits; line k shows x[k], line 32 shows the pc. The digits
are read without regard to their case, and the text is the lines with one line feed after each, the
choice of D11 (log 10). -/
def Obligations.DumpShowsRegistersThenPc : Prop :=
  ∀ s : State,
    perform .dump s = .next (s.setOutput (.text (dumpText s))) ∧
    dumpText s = (dumpLines s).flatMap (fun line => line ++ ['\n']) ∧
    (dumpLines s).length = 33 ∧
    (∀ line ∈ dumpLines s, line.length = 8) ∧
    (∀ k : Nat, k < 32 → ∃ line, (dumpLines s)[k]? = some line ∧
      readHexFrom 0 line = some (readX s (BitVec.ofNat 5 k)).toNat) ∧
    (∃ line, (dumpLines s)[32]? = some line ∧ readHexFrom 0 line = some s.pc.toNat)

/-- R38: the operations that read or compute hand their result back and change nothing else, on every
argument: the field decoder and the immediate decoder alone, on any word and opcode, the pc. -/
def Obligations.ReadingOperationsHandBack : Prop :=
  ∀ (s : State) (w : Word) (op : Opcode) (i : RegIndex) (v : Nat),
    perform (.decodeFields w) s = .next (s.setOutput (.fields (decodeFields w))) ∧
    perform (.decodeImmediate w op) s = .next (s.setOutput (.immediate (decodeImmediate w op))) ∧
    perform (.link i) s = .next (s.setOutput (.handle (linkHandle i))) ∧
    perform .readPc s = .next (s.setOutput (.value s.pc)) ∧
    perform (.writePc v) s = .next ((s.setPc (BitVec.ofNat 32 v)).setOutput .done)

/-! ## Rules of the whole machine -/

/-- R29: in a step that goes on the pc changes only by `reset()`, to 0, or by the caller's write, to
the value written modulo 2^32, aligned or not; no instruction and no fetch changes it. -/
def Obligations.OnlyResetAndCallerWritePc : Prop :=
  ∀ s t : State, step s = .next t →
    (t.pc ≠ s.pc → nextCall s = .reset ∨ ∃ v, nextCall s = .writePc v) ∧
    (nextCall s = .reset → t.pc = 0) ∧
    (∀ v, nextCall s = .writePc v → t.pc.toNat = v % 2 ^ 32)

/-- R24, R27: in a step that goes on a register changes only by `reset()`, to 0, or by the caller's
write of that register; register 0 never. -/
def Obligations.OnlyResetAndCallerWriteRegisters : Prop :=
  ∀ (s t : State) (i : RegIndex), step s = .next t → readX t i ≠ readX s i →
    i ≠ 0 ∧ ((nextCall s = .reset ∧ readX t i = 0) ∨
      ∃ r v, nextCall s = .writeReg r v ∧ r.slot = i ∧ readX t i = BitVec.ofNat 32 v)

/-- The model's choice that the caller changes a source only between operations (log 13) and only by
linking another image, whole (log 15): in a step that goes on a linked byte sequence changes in no
other way, and then it has that image's length and bytes. The spec says that the core never writes a
source (R52) and that the caller changes it (R20, R64). -/
def Obligations.OnlyLinkingChangesSources : Prop :=
  ∀ s t : State, step s = .next t →
    (t.source ≠ s.source → ∃ image, nextCall s = .linkSource image ∧
      ∃ m, t.source = some m ∧ m.size = image.length ∧
        ∀ a, (h : a < image.length) → m.byte a = image[a]) ∧
    (t.dataSource ≠ s.dataSource → ∃ image, nextCall s = .linkData image ∧
      ∃ m, t.dataSource = some m ∧ m.size = image.length ∧
        ∀ a, (h : a < image.length) → m.byte a = image[a])

/-- R53: the data source is dead to the core: but for linking one, no step writes it, and what is
linked makes no difference to any step. -/
def Obligations.DataSourceIsDead : Prop :=
  ∀ s : State, (∀ image, nextCall s ≠ .linkData image) →
    (∀ t, step s = .next t → t.dataSource = s.dataSource ∧
      ∀ m, step (s.setDataSource m) = .next (t.setDataSource m)) ∧
    (∀ e, step s = .fault e → ∀ m, step (s.setDataSource m) = .fault e)

/-- Every step that goes on keeps the invariant: the cell behind register 0 holds 0 and the linked
byte sequences stay in canonical form. -/
def Obligations.StepKeepsTheInvariant : Prop :=
  ∀ s t : State, s.Inv → step s = .next t → t.Inv

/-- The machine after construction meets the invariant. -/
def Obligations.ConstructionMeetsTheInvariant : Prop := State.reset.Inv
end

