-- ==== Sys2Proof/Laws/Decoding.lean ====
section
/-! SUPPORT. Everything `decodeWord` can answer, said once (spec/30_encoding.md R96). -/

namespace Sys2Proof

/-- R96: every value of the low seven bits is one of the 28 opcodes of 32-bit format or one of the 100
others, which the low five bits tell apart. -/
theorem opcode_cases : ∀ op : Opcode,
    op = 0b0110111#7 ∨
    op = 0b0010111#7 ∨
    op = 0b1101111#7 ∨
    op = 0b1100111#7 ∨
    op = 0b0000011#7 ∨
    op = 0b1100011#7 ∨
    op = 0b0100011#7 ∨
    op = 0b0010011#7 ∨
    op = 0b0110011#7 ∨
    op = 0b0000111#7 ∨
    op = 0b0001011#7 ∨
    op = 0b0001111#7 ∨
    op = 0b0011011#7 ∨
    op = 0b0100111#7 ∨
    op = 0b0101011#7 ∨
    op = 0b0101111#7 ∨
    op = 0b0111011#7 ∨
    op = 0b1000011#7 ∨
    op = 0b1000111#7 ∨
    op = 0b1001011#7 ∨
    op = 0b1001111#7 ∨
    op = 0b1010011#7 ∨
    op = 0b1010111#7 ∨
    op = 0b1011011#7 ∨
    op = 0b1101011#7 ∨
    op = 0b1110011#7 ∨
    op = 0b1110111#7 ∨
    op = 0b1111011#7 ∨
    op.extractLsb' 0 2 = 0b00#2 ∨ op.extractLsb' 0 2 = 0b01#2 ∨ op.extractLsb' 0 2 = 0b10#2 ∨
    op.extractLsb' 0 5 = 0b11111#5 := by
  decide

section
variable (w : Word)

theorem decodeWord_lui (h : w.extractLsb' 0 7 = 0b0110111#7) :
    decodeWord w = .lui (w.extractLsb' 7 5) (w.extractLsb' 12 20) := by
  simp [decodeWord, h]

theorem decodeWord_auipc (h : w.extractLsb' 0 7 = 0b0010111#7) :
    decodeWord w = .auipc (w.extractLsb' 7 5) (w.extractLsb' 12 20) := by
  simp [decodeWord, h]

theorem decodeWord_jal (h : w.extractLsb' 0 7 = 0b1101111#7) :
    decodeWord w = .jal (w.extractLsb' 7 5)
      (w.extractLsb' 31 1 ++ w.extractLsb' 12 8 ++ w.extractLsb' 20 1 ++ w.extractLsb' 21 10) := by
  simp [decodeWord, h]

theorem decodeWord_jalr (h : w.extractLsb' 0 7 = 0b1100111#7) :
    decodeWord w = .jalr (w.extractLsb' 7 5) (w.extractLsb' 12 3)
      (w.extractLsb' 15 5) (w.extractLsb' 20 12) := by
  simp [decodeWord, h]

theorem decodeWord_load (h : w.extractLsb' 0 7 = 0b0000011#7) :
    decodeWord w = .load (w.extractLsb' 7 5) (w.extractLsb' 12 3)
      (w.extractLsb' 15 5) (w.extractLsb' 20 12) := by
  simp [decodeWord, h]

theorem decodeWord_branch (h : w.extractLsb' 0 7 = 0b1100011#7) :
    decodeWord w = .branch (w.extractLsb' 12 3) (w.extractLsb' 15 5)
      (w.extractLsb' 20 5) (w.extractLsb' 31 1 ++ w.extractLsb' 7 1 ++ w.extractLsb' 25 6 ++ w.extractLsb' 8 4) := by
  simp [decodeWord, h]

theorem decodeWord_store (h : w.extractLsb' 0 7 = 0b0100011#7) :
    decodeWord w = .store (w.extractLsb' 12 3) (w.extractLsb' 15 5)
      (w.extractLsb' 20 5) (w.extractLsb' 25 7 ++ w.extractLsb' 7 5) := by
  simp [decodeWord, h]

theorem decodeWord_opImm (h : w.extractLsb' 0 7 = 0b0010011#7) :
    decodeWord w = .opImm (w.extractLsb' 7 5) (w.extractLsb' 12 3)
      (w.extractLsb' 15 5) (w.extractLsb' 20 12) := by
  simp [decodeWord, h]

theorem decodeWord_op (h : w.extractLsb' 0 7 = 0b0110011#7)
    (hs : ¬ (w.extractLsb' 25 7 = 0b0100000#7 ∧ w.extractLsb' 12 3 = 0b000#3)) :
    decodeWord w = .op (w.extractLsb' 25 7) (w.extractLsb' 20 5) (w.extractLsb' 15 5)
      (w.extractLsb' 12 3) (w.extractLsb' 7 5) := by
  simp only [decodeWord, h]
  exact if_neg hs

theorem decodeWord_sub (h : w.extractLsb' 0 7 = 0b0110011#7)
    (hs : w.extractLsb' 25 7 = 0b0100000#7 ∧ w.extractLsb' 12 3 = 0b000#3) :
    decodeWord w = .sub (w.extractLsb' 20 5) (w.extractLsb' 15 5) (w.extractLsb' 7 5) := by
  simp only [decodeWord, h]
  exact if_pos hs

theorem decodeWord_opc0000111 (h : w.extractLsb' 0 7 = 0b0000111#7) :
    decodeWord w = .opc0000111 (w.extractLsb' 25 7) (w.extractLsb' 20 5) (w.extractLsb' 15 5)
      (w.extractLsb' 12 3) (w.extractLsb' 7 5) := by
  simp [decodeWord, h]

theorem decodeWord_opc0001011 (h : w.extractLsb' 0 7 = 0b0001011#7) :
    decodeWord w = .opc0001011 (w.extractLsb' 25 7) (w.extractLsb' 20 5) (w.extractLsb' 15 5)
      (w.extractLsb' 12 3) (w.extractLsb' 7 5) := by
  simp [decodeWord, h]

theorem decodeWord_opc0001111 (h : w.extractLsb' 0 7 = 0b0001111#7) :
    decodeWord w = .opc0001111 (w.extractLsb' 25 7) (w.extractLsb' 20 5) (w.extractLsb' 15 5)
      (w.extractLsb' 12 3) (w.extractLsb' 7 5) := by
  simp [decodeWord, h]

theorem decodeWord_opc0011011 (h : w.extractLsb' 0 7 = 0b0011011#7) :
    decodeWord w = .opc0011011 (w.extractLsb' 25 7) (w.extractLsb' 20 5) (w.extractLsb' 15 5)
      (w.extractLsb' 12 3) (w.extractLsb' 7 5) := by
  simp [decodeWord, h]

theorem decodeWord_opc0100111 (h : w.extractLsb' 0 7 = 0b0100111#7) :
    decodeWord w = .opc0100111 (w.extractLsb' 25 7) (w.extractLsb' 20 5) (w.extractLsb' 15 5)
      (w.extractLsb' 12 3) (w.extractLsb' 7 5) := by
  simp [decodeWord, h]

theorem decodeWord_opc0101011 (h : w.extractLsb' 0 7 = 0b0101011#7) :
    decodeWord w = .opc0101011 (w.extractLsb' 25 7) (w.extractLsb' 20 5) (w.extractLsb' 15 5)
      (w.extractLsb' 12 3) (w.extractLsb' 7 5) := by
  simp [decodeWord, h]

theorem decodeWord_opc0101111 (h : w.extractLsb' 0 7 = 0b0101111#7) :
    decodeWord w = .opc0101111 (w.extractLsb' 25 7) (w.extractLsb' 20 5) (w.extractLsb' 15 5)
      (w.extractLsb' 12 3) (w.extractLsb' 7 5) := by
  simp [decodeWord, h]

theorem decodeWord_opc0111011 (h : w.extractLsb' 0 7 = 0b0111011#7) :
    decodeWord w = .opc0111011 (w.extractLsb' 25 7) (w.extractLsb' 20 5) (w.extractLsb' 15 5)
      (w.extractLsb' 12 3) (w.extractLsb' 7 5) := by
  simp [decodeWord, h]

theorem decodeWord_opc1000011 (h : w.extractLsb' 0 7 = 0b1000011#7) :
    decodeWord w = .opc1000011 (w.extractLsb' 25 7) (w.extractLsb' 20 5) (w.extractLsb' 15 5)
      (w.extractLsb' 12 3) (w.extractLsb' 7 5) := by
  simp [decodeWord, h]

theorem decodeWord_opc1000111 (h : w.extractLsb' 0 7 = 0b1000111#7) :
    decodeWord w = .opc1000111 (w.extractLsb' 25 7) (w.extractLsb' 20 5) (w.extractLsb' 15 5)
      (w.extractLsb' 12 3) (w.extractLsb' 7 5) := by
  simp [decodeWord, h]

theorem decodeWord_opc1001011 (h : w.extractLsb' 0 7 = 0b1001011#7) :
    decodeWord w = .opc1001011 (w.extractLsb' 25 7) (w.extractLsb' 20 5) (w.extractLsb' 15 5)
      (w.extractLsb' 12 3) (w.extractLsb' 7 5) := by
  simp [decodeWord, h]

theorem decodeWord_opc1001111 (h : w.extractLsb' 0 7 = 0b1001111#7) :
    decodeWord w = .opc1001111 (w.extractLsb' 25 7) (w.extractLsb' 20 5) (w.extractLsb' 15 5)
      (w.extractLsb' 12 3) (w.extractLsb' 7 5) := by
  simp [decodeWord, h]

theorem decodeWord_opc1010011 (h : w.extractLsb' 0 7 = 0b1010011#7) :
    decodeWord w = .opc1010011 (w.extractLsb' 25 7) (w.extractLsb' 20 5) (w.extractLsb' 15 5)
      (w.extractLsb' 12 3) (w.extractLsb' 7 5) := by
  simp [decodeWord, h]

theorem decodeWord_opc1010111 (h : w.extractLsb' 0 7 = 0b1010111#7) :
    decodeWord w = .opc1010111 (w.extractLsb' 25 7) (w.extractLsb' 20 5) (w.extractLsb' 15 5)
      (w.extractLsb' 12 3) (w.extractLsb' 7 5) := by
  simp [decodeWord, h]

theorem decodeWord_opc1011011 (h : w.extractLsb' 0 7 = 0b1011011#7) :
    decodeWord w = .opc1011011 (w.extractLsb' 25 7) (w.extractLsb' 20 5) (w.extractLsb' 15 5)
      (w.extractLsb' 12 3) (w.extractLsb' 7 5) := by
  simp [decodeWord, h]

theorem decodeWord_opc1101011 (h : w.extractLsb' 0 7 = 0b1101011#7) :
    decodeWord w = .opc1101011 (w.extractLsb' 25 7) (w.extractLsb' 20 5) (w.extractLsb' 15 5)
      (w.extractLsb' 12 3) (w.extractLsb' 7 5) := by
  simp [decodeWord, h]

theorem decodeWord_opc1110011 (h : w.extractLsb' 0 7 = 0b1110011#7) :
    decodeWord w = .opc1110011 (w.extractLsb' 25 7) (w.extractLsb' 20 5) (w.extractLsb' 15 5)
      (w.extractLsb' 12 3) (w.extractLsb' 7 5) := by
  simp [decodeWord, h]

theorem decodeWord_opc1110111 (h : w.extractLsb' 0 7 = 0b1110111#7) :
    decodeWord w = .opc1110111 (w.extractLsb' 25 7) (w.extractLsb' 20 5) (w.extractLsb' 15 5)
      (w.extractLsb' 12 3) (w.extractLsb' 7 5) := by
  simp [decodeWord, h]

theorem decodeWord_opc1111011 (h : w.extractLsb' 0 7 = 0b1111011#7) :
    decodeWord w = .opc1111011 (w.extractLsb' 25 7) (w.extractLsb' 20 5) (w.extractLsb' 15 5)
      (w.extractLsb' 12 3) (w.extractLsb' 7 5) := by
  simp [decodeWord, h]

/-- The low slices of a word's low seven bits are the word's own. -/
theorem low2_of_opcode : (w.extractLsb' 0 7).extractLsb' 0 2 = w.extractLsb' 0 2 := by
  apply BitVec.eq_of_toNat_eq
  simp only [toNat_slice]
  omega

theorem low5_of_opcode : (w.extractLsb' 0 7).extractLsb' 0 5 = w.extractLsb' 0 5 := by
  apply BitVec.eq_of_toNat_eq
  simp only [toNat_slice]
  omega

/-- No opcode of 32-bit format has low bits other than 11 or low bits 11111. -/
theorem decodeWord_not32 (h : w.extractLsb' 0 2 ≠ 0b11#2 ∨ w.extractLsb' 0 5 = 0b11111#5) :
    decodeWord w = match w.extractLsb' 0 2 with
      | 0b00#2 => .not32Low00 (w.extractLsb' 2 30)
      | 0b01#2 => .not32Low01 (w.extractLsb' 2 30)
      | 0b10#2 => .not32Low10 (w.extractLsb' 2 30)
      | _ => .not32Long (w.extractLsb' 5 27) := by
  rw [← low2_of_opcode, ← low5_of_opcode] at h
  rw [← low2_of_opcode]
  unfold decodeWord
  dsimp only
  rw [← low2_of_opcode]
  generalize w.extractLsb' 0 7 = op at h ⊢
  split <;> first | rfl | (exfalso; revert h; decide)

/-- The four patterns that are not of 32-bit format, one by one. -/
theorem decodeWord_low00 (h : w.extractLsb' 0 2 = 0b00#2) :
    decodeWord w = .not32Low00 (w.extractLsb' 2 30) := by
  simp [decodeWord_not32 w (.inl (by rw [h]; decide)), h]

theorem decodeWord_low01 (h : w.extractLsb' 0 2 = 0b01#2) :
    decodeWord w = .not32Low01 (w.extractLsb' 2 30) := by
  simp [decodeWord_not32 w (.inl (by rw [h]; decide)), h]

theorem decodeWord_low10 (h : w.extractLsb' 0 2 = 0b10#2) :
    decodeWord w = .not32Low10 (w.extractLsb' 2 30) := by
  simp [decodeWord_not32 w (.inl (by rw [h]; decide)), h]

theorem decodeWord_long (h : w.extractLsb' 0 5 = 0b11111#5) :
    decodeWord w = .not32Long (w.extractLsb' 5 27) := by
  have h2 : w.extractLsb' 0 2 = 0b11#2 := by
    have := congrArg BitVec.toNat h
    apply BitVec.eq_of_toNat_eq
    simp only [toNat_slice, BitVec.toNat_ofNat] at this ⊢
    omega
  simp [decodeWord_not32 w (.inr h), h2]

end

end Sys2Proof
end

