-- ==== Sys2Proof/Laws/Encoding.lean ====
section
/-! SUPPORT. What each encoder of spec/30_encoding.md R105 builds, as a number and field by field. -/

namespace Sys2Proof

/-! ## The encoders as numbers -/

theorem encR_toNat (f7 : Funct7) (rs2 rs1 : RegIndex) (f3 : Funct3) (rd : RegIndex) (op : Opcode) :
    (encR f7 rs2 rs1 f3 rd op).toNat = f7.toNat * 2 ^ 25 + rs2.toNat * 2 ^ 20 + rs1.toNat * 2 ^ 15
      + f3.toNat * 2 ^ 12 + rd.toNat * 2 ^ 7 + op.toNat := by
  show BitVec.toNat (w := 7 + 5 + 5 + 3 + 5 + 7) _ = _
  simp only [encR, toNat_cat]
  omega

theorem encI_toNat (imm : Word) (rs1 : RegIndex) (f3 : Funct3) (rd : RegIndex) (op : Opcode) :
    (encI imm rs1 f3 rd op).toNat = imm.toNat % 2 ^ 12 * 2 ^ 20 + rs1.toNat * 2 ^ 15
      + f3.toNat * 2 ^ 12 + rd.toNat * 2 ^ 7 + op.toNat := by
  show BitVec.toNat (w := 12 + 5 + 3 + 5 + 7) _ = _
  simp only [encI, toNat_cat, toNat_slice]
  omega

theorem encS_toNat (imm : Word) (rs2 rs1 : RegIndex) (f3 : Funct3) (op : Opcode) :
    (encS imm rs2 rs1 f3 op).toNat = imm.toNat / 2 ^ 5 % 2 ^ 7 * 2 ^ 25 + rs2.toNat * 2 ^ 20
      + rs1.toNat * 2 ^ 15 + f3.toNat * 2 ^ 12 + imm.toNat % 2 ^ 5 * 2 ^ 7 + op.toNat := by
  show BitVec.toNat (w := 7 + 5 + 5 + 3 + 5 + 7) _ = _
  simp only [encS, toNat_cat, toNat_slice]
  omega

theorem encB_toNat (imm : Word) (rs2 rs1 : RegIndex) (f3 : Funct3) (op : Opcode) :
    (encB imm rs2 rs1 f3 op).toNat = imm.toNat / 2 ^ 12 % 2 * 2 ^ 31
      + imm.toNat / 2 ^ 5 % 2 ^ 6 * 2 ^ 25 + rs2.toNat * 2 ^ 20 + rs1.toNat * 2 ^ 15
      + f3.toNat * 2 ^ 12 + imm.toNat / 2 % 2 ^ 4 * 2 ^ 8 + imm.toNat / 2 ^ 11 % 2 * 2 ^ 7
      + op.toNat := by
  show BitVec.toNat (w := 1 + 6 + 5 + 5 + 3 + 4 + 1 + 7) _ = _
  simp only [encB, toNat_cat, toNat_slice]
  omega

theorem encU_toNat (imm : Word) (rd : RegIndex) (op : Opcode) :
    (encU imm rd op).toNat = imm.toNat / 2 ^ 12 * 2 ^ 12 + rd.toNat * 2 ^ 7 + op.toNat := by
  show BitVec.toNat (w := 20 + 5 + 7) _ = _
  simp only [encU, toNat_cat, toNat_slice]
  omega

theorem encJ_toNat (imm : Word) (rd : RegIndex) (op : Opcode) :
    (encJ imm rd op).toNat = imm.toNat / 2 ^ 20 % 2 * 2 ^ 31 + imm.toNat / 2 % 2 ^ 10 * 2 ^ 21
      + imm.toNat / 2 ^ 11 % 2 * 2 ^ 20 + imm.toNat / 2 ^ 12 % 2 ^ 8 * 2 ^ 12 + rd.toNat * 2 ^ 7
      + op.toNat := by
  show BitVec.toNat (w := 1 + 10 + 1 + 8 + 5 + 7) _ = _
  simp only [encJ, toNat_cat, toNat_slice]
  omega

theorem widenU_toNat (imm : BitVec 20) : (widenU imm).toNat = imm.toNat * 2 ^ 12 := by
  show BitVec.toNat (w := 20 + 12) _ = _
  simp only [widenU, toNat_cat, BitVec.toNat_ofNat]
  omega

theorem widenJ_toNat (imm : BitVec 20) : (widenJ imm).toNat = imm.toNat * 2 := by
  show BitVec.toNat (w := 11 + 20 + 1) _ = _
  simp only [widenJ, toNat_cat, BitVec.toNat_ofNat]
  omega

theorem widenB_toNat (imm : BitVec 12) : (widenB imm).toNat = imm.toNat * 2 := by
  show BitVec.toNat (w := 19 + 12 + 1) _ = _
  simp only [widenB, toNat_cat, BitVec.toNat_ofNat]
  omega

theorem widen12_toNat (imm : BitVec 12) : (widen12 imm).toNat = imm.toNat := by
  show BitVec.toNat (w := 20 + 12) _ = _
  simp only [widen12, toNat_cat, BitVec.toNat_ofNat]
  omega

theorem encode_low00_toNat (rest : BitVec 30) :
    (encode (.not32Low00 rest)).toNat = rest.toNat * 4 := by
  show BitVec.toNat (w := 30 + 2) _ = _
  simp only [encode, toNat_cat, BitVec.toNat_ofNat]
  omega

theorem encode_low01_toNat (rest : BitVec 30) :
    (encode (.not32Low01 rest)).toNat = rest.toNat * 4 + 1 := by
  show BitVec.toNat (w := 30 + 2) _ = _
  simp only [encode, toNat_cat, BitVec.toNat_ofNat]
  omega

theorem encode_low10_toNat (rest : BitVec 30) :
    (encode (.not32Low10 rest)).toNat = rest.toNat * 4 + 2 := by
  show BitVec.toNat (w := 30 + 2) _ = _
  simp only [encode, toNat_cat, BitVec.toNat_ofNat]
  omega

theorem encode_long_toNat (rest : BitVec 27) :
    (encode (.not32Long rest)).toNat = rest.toNat * 32 + 31 := by
  show BitVec.toNat (w := 27 + 5) _ = _
  simp only [encode, toNat_cat, BitVec.toNat_ofNat]
  omega

/-! ## The encoders bit by bit

With these an equation between slices, encoders and immediates is 32 small cases. -/

section
variable (f7 : Funct7) (rs2 rs1 : RegIndex) (f3 : Funct3) (rd : RegIndex) (op : Opcode) (imm : Word)

theorem encR_bit (i : Nat) (hi : i < 32) : (encR f7 rs2 rs1 f3 rd op)[i] =
    if i < 7 then op.getLsbD i else if i < 12 then rd.getLsbD (i - 7)
    else if i < 15 then f3.getLsbD (i - 12) else if i < 20 then rs1.getLsbD (i - 15)
    else if i < 25 then rs2.getLsbD (i - 20) else f7.getLsbD (i - 25) := by
  rw [← BitVec.getLsbD_eq_getElem]
  show BitVec.getLsbD (w := 7 + 5 + 5 + 3 + 5 + 7) _ i = _
  simp only [encR, BitVec.getLsbD_append]
  interval_cases i <;> simp

theorem encI_bit (i : Nat) (hi : i < 32) : (encI imm rs1 f3 rd op)[i] =
    if i < 7 then op.getLsbD i else if i < 12 then rd.getLsbD (i - 7)
    else if i < 15 then f3.getLsbD (i - 12) else if i < 20 then rs1.getLsbD (i - 15)
    else imm.getLsbD (i - 20) := by
  rw [← BitVec.getLsbD_eq_getElem]
  show BitVec.getLsbD (w := 12 + 5 + 3 + 5 + 7) _ i = _
  simp only [encI, BitVec.getLsbD_append, BitVec.getLsbD_extractLsb']
  interval_cases i <;> simp

theorem encS_bit (i : Nat) (hi : i < 32) : (encS imm rs2 rs1 f3 op)[i] =
    if i < 7 then op.getLsbD i else if i < 12 then imm.getLsbD (i - 7)
    else if i < 15 then f3.getLsbD (i - 12) else if i < 20 then rs1.getLsbD (i - 15)
    else if i < 25 then rs2.getLsbD (i - 20) else imm.getLsbD (i - 20) := by
  rw [← BitVec.getLsbD_eq_getElem]
  show BitVec.getLsbD (w := 7 + 5 + 5 + 3 + 5 + 7) _ i = _
  simp only [encS, BitVec.getLsbD_append, BitVec.getLsbD_extractLsb']
  interval_cases i <;> simp

theorem encB_bit (i : Nat) (hi : i < 32) : (encB imm rs2 rs1 f3 op)[i] =
    if i < 7 then op.getLsbD i else if i = 7 then imm.getLsbD 11
    else if i < 12 then imm.getLsbD (i - 7)
    else if i < 15 then f3.getLsbD (i - 12) else if i < 20 then rs1.getLsbD (i - 15)
    else if i < 25 then rs2.getLsbD (i - 20) else if i < 31 then imm.getLsbD (i - 20)
    else imm.getLsbD 12 := by
  rw [← BitVec.getLsbD_eq_getElem]
  show BitVec.getLsbD (w := 1 + 6 + 5 + 5 + 3 + 4 + 1 + 7) _ i = _
  simp only [encB, BitVec.getLsbD_append, BitVec.getLsbD_extractLsb']
  interval_cases i <;> simp

theorem encU_bit (i : Nat) (hi : i < 32) : (encU imm rd op)[i] =
    if i < 7 then op.getLsbD i else if i < 12 then rd.getLsbD (i - 7) else imm.getLsbD i := by
  rw [← BitVec.getLsbD_eq_getElem]
  show BitVec.getLsbD (w := 20 + 5 + 7) _ i = _
  simp only [encU, BitVec.getLsbD_append, BitVec.getLsbD_extractLsb']
  interval_cases i <;> simp

theorem encJ_bit (i : Nat) (hi : i < 32) : (encJ imm rd op)[i] =
    if i < 7 then op.getLsbD i else if i < 12 then rd.getLsbD (i - 7)
    else if i < 20 then imm.getLsbD i else if i = 20 then imm.getLsbD 11
    else if i < 31 then imm.getLsbD (i - 20) else imm.getLsbD 20 := by
  rw [← BitVec.getLsbD_eq_getElem]
  show BitVec.getLsbD (w := 1 + 10 + 1 + 8 + 5 + 7) _ i = _
  simp only [encJ, BitVec.getLsbD_append, BitVec.getLsbD_extractLsb']
  interval_cases i <;> simp

theorem widenU_bit (hi : BitVec 20) (i : Nat) (h32 : i < 32) : (widenU hi)[i] =
    if i < 12 then false else hi.getLsbD (i - 12) := by
  rw [← BitVec.getLsbD_eq_getElem]
  show BitVec.getLsbD (w := 20 + 12) _ i = _
  simp only [widenU, BitVec.getLsbD_append]
  simp

theorem widenJ_bit (hi : BitVec 20) (i : Nat) (h32 : i < 32) : (widenJ hi)[i] =
    if i < 1 then false else hi.getLsbD (i - 1) := by
  rw [← BitVec.getLsbD_eq_getElem]
  show BitVec.getLsbD (w := 11 + 20 + 1) _ i = _
  simp only [widenJ, BitVec.getLsbD_append]
  by_cases h : i - 1 < 20
  · simp [h]
  · simp [BitVec.getLsbD_of_ge hi (i - 1) (by omega)]

theorem widenB_bit (hi : BitVec 12) (i : Nat) (h32 : i < 32) : (widenB hi)[i] =
    if i < 1 then false else hi.getLsbD (i - 1) := by
  rw [← BitVec.getLsbD_eq_getElem]
  show BitVec.getLsbD (w := 19 + 12 + 1) _ i = _
  simp only [widenB, BitVec.getLsbD_append]
  by_cases h : i - 1 < 12
  · simp [h]
  · simp [BitVec.getLsbD_of_ge hi (i - 1) (by omega)]

theorem widen12_bit (hi : BitVec 12) (i : Nat) (h32 : i < 32) : (widen12 hi)[i] = hi.getLsbD i := by
  rw [← BitVec.getLsbD_eq_getElem]
  show BitVec.getLsbD (w := 20 + 12) _ i = _
  simp only [widen12, BitVec.getLsbD_append]
  by_cases h : i < 12
  · simp [h]
  · simp [BitVec.getLsbD_of_ge hi i (by omega)]

end

/-! ## The fixed fields of an encoded word (R82) -/

section
variable (f7 : Funct7) (rs2 rs1 : RegIndex) (f3 : Funct3) (rd : RegIndex) (op : Opcode) (imm : Word)

@[simp] theorem encR_opcode : (encR f7 rs2 rs1 f3 rd op).extractLsb' 0 7 = op := by
  apply BitVec.eq_of_toNat_eq; rw [toNat_slice, encR_toNat]; omega

@[simp] theorem encR_rd : (encR f7 rs2 rs1 f3 rd op).extractLsb' 7 5 = rd := by
  apply BitVec.eq_of_toNat_eq; rw [toNat_slice, encR_toNat]; omega

@[simp] theorem encR_funct3 : (encR f7 rs2 rs1 f3 rd op).extractLsb' 12 3 = f3 := by
  apply BitVec.eq_of_toNat_eq; rw [toNat_slice, encR_toNat]; omega

@[simp] theorem encR_rs1 : (encR f7 rs2 rs1 f3 rd op).extractLsb' 15 5 = rs1 := by
  apply BitVec.eq_of_toNat_eq; rw [toNat_slice, encR_toNat]; omega

@[simp] theorem encR_rs2 : (encR f7 rs2 rs1 f3 rd op).extractLsb' 20 5 = rs2 := by
  apply BitVec.eq_of_toNat_eq; rw [toNat_slice, encR_toNat]; omega

@[simp] theorem encR_funct7 : (encR f7 rs2 rs1 f3 rd op).extractLsb' 25 7 = f7 := by
  apply BitVec.eq_of_toNat_eq; rw [toNat_slice, encR_toNat]; omega

@[simp] theorem encI_opcode : (encI imm rs1 f3 rd op).extractLsb' 0 7 = op := by
  apply BitVec.eq_of_toNat_eq; rw [toNat_slice, encI_toNat]; omega

@[simp] theorem encS_opcode : (encS imm rs2 rs1 f3 op).extractLsb' 0 7 = op := by
  apply BitVec.eq_of_toNat_eq; rw [toNat_slice, encS_toNat]; omega

@[simp] theorem encB_opcode : (encB imm rs2 rs1 f3 op).extractLsb' 0 7 = op := by
  apply BitVec.eq_of_toNat_eq; rw [toNat_slice, encB_toNat]; omega

@[simp] theorem encU_opcode : (encU imm rd op).extractLsb' 0 7 = op := by
  apply BitVec.eq_of_toNat_eq; rw [toNat_slice, encU_toNat]; omega

@[simp] theorem encJ_opcode : (encJ imm rd op).extractLsb' 0 7 = op := by
  apply BitVec.eq_of_toNat_eq; rw [toNat_slice, encJ_toNat]; omega

end

/-! ## Bytes (R54) -/

theorem wordOfBytes_toNat (b0 b1 b2 b3 : Byte) :
    (wordOfBytes b0 b1 b2 b3).toNat
      = b0.toNat + b1.toNat * 2 ^ 8 + b2.toNat * 2 ^ 16 + b3.toNat * 2 ^ 24 := by
  show BitVec.toNat (w := 8 + 8 + 8 + 8) _ = _
  simp only [wordOfBytes, toNat_cat]
  omega

/-- The four bytes of a word, read little-endian, are the word. -/
theorem wordOfBytes_slices (w : Word) :
    wordOfBytes (w.extractLsb' 0 8) (w.extractLsb' 8 8) (w.extractLsb' 16 8) (w.extractLsb' 24 8)
      = w := by
  apply BitVec.eq_of_toNat_eq
  simp only [wordOfBytes_toNat, toNat_slice]
  omega

end Sys2Proof
end

