-- ==== Sys2Proof/Laws/Memory.lean ====
section
/-! SUPPORT. The laws of byte sequences: a byte reads as it was last laid out, every operation keeps
the canonical form, and in canonical form equal contents are equal data. -/

namespace Sys2Proof.Machine

/-! ## Cells -/

theorem cellsGet_cons (a b : Nat) (v : Byte) (rest : List Host.Cell)
    (h : cellsGet rest a = Config.unlistedByte) :
    cellsGet (cellsCons a v rest) b = if b = a then v else cellsGet rest b := by
  unfold cellsCons
  split
  · next hv =>
    split
    · next hb => rw [hb, h, hv]
    · rfl
  · by_cases hb : b = a
    · subst hb; simp [cellsGet]
    · have : ¬ a = b := fun h => hb h.symm
      simp [cellsGet, hb, this]

/-- Below the first address of canonical cells nothing is listed. -/
theorem cellsGet_below {lo hi : Nat} {cells : List Host.Cell} (h : cellsWf lo hi cells = true)
    {a : Nat} (ha : a < lo) : cellsGet cells a = Config.unlistedByte := by
  induction cells generalizing lo with
  | nil => rfl
  | cons c rest ih =>
    obtain ⟨k, v⟩ := c
    simp only [cellsWf, Bool.and_eq_true, decide_eq_true_eq] at h
    have : ¬ k = a := by omega
    simp only [cellsGet, this, if_false]
    exact ih h.2 (by omega)

/-- At or past the bound nothing is listed. -/
theorem cellsGet_above {lo hi : Nat} {cells : List Host.Cell} (h : cellsWf lo hi cells = true)
    {a : Nat} (ha : hi ≤ a) : cellsGet cells a = Config.unlistedByte := by
  induction cells generalizing lo with
  | nil => rfl
  | cons c rest ih =>
    obtain ⟨k, v⟩ := c
    simp only [cellsWf, Bool.and_eq_true, decide_eq_true_eq] at h
    have : ¬ k = a := by omega
    simp only [cellsGet, this, if_false]
    exact ih h.2

theorem cellsWf_mono {lo hi lo' hi' : Nat} {cells : List Host.Cell}
    (h : cellsWf lo hi cells = true) (hlo : lo' ≤ lo) (hhi : hi ≤ hi') :
    cellsWf lo' hi' cells = true := by
  induction cells generalizing lo lo' with
  | nil => rfl
  | cons c rest ih =>
    obtain ⟨k, v⟩ := c
    simp only [cellsWf, Bool.and_eq_true, decide_eq_true_eq] at h ⊢
    exact ⟨⟨⟨by omega, by omega⟩, h.1.2⟩, ih h.2 (Nat.le_refl _)⟩

theorem cellsWf_cons {lo hi a : Nat} {rest : List Host.Cell} (v : Byte) (hlo : lo ≤ a)
    (hhi : a < hi) (h : cellsWf (a + 1) hi rest = true) :
    cellsWf lo hi (cellsCons a v rest) = true := by
  unfold cellsCons
  split
  · exact cellsWf_mono h (by omega) (Nat.le_refl _)
  · next hv =>
    simp only [cellsWf, Bool.and_eq_true, decide_eq_true_eq, bne_iff_ne]
    exact ⟨⟨⟨hlo, hhi⟩, hv⟩, h⟩

theorem cellsGet_set {lo hi : Nat} {cells : List Host.Cell} (h : cellsWf lo hi cells = true)
    (a b : Nat) (v : Byte) :
    cellsGet (cellsSet cells a v) b = if b = a then v else cellsGet cells b := by
  induction cells generalizing lo with
  | nil => exact cellsGet_cons a b v [] rfl
  | cons c rest ih =>
    obtain ⟨k, w⟩ := c
    have hr := h
    simp only [cellsWf, Bool.and_eq_true, decide_eq_true_eq] at hr
    unfold cellsSet
    split
    · next hlt =>
      refine cellsGet_cons a b v _ ?_
      have hk : cellsWf k hi ((k, w) :: rest) = true := by
        simp only [cellsWf, Bool.and_eq_true, decide_eq_true_eq]
        exact ⟨⟨⟨Nat.le_refl _, hr.1.1.2⟩, hr.1.2⟩, hr.2⟩
      exact cellsGet_below hk hlt
    · split
      · next hak =>
        subst hak
        rw [cellsGet_cons a b v rest (cellsGet_below hr.2 (by omega))]
        by_cases hb : b = a
        · simp [hb]
        · have : ¬ a = b := fun e => hb e.symm
          simp [cellsGet, hb, this]
      · next hne =>
        simp only [cellsGet]
        rw [ih hr.2]
        by_cases hkb : k = b
        · have : ¬ b = a := fun e => hne (by omega)
          simp [hkb, this]
        · simp [hkb]

theorem cellsWf_set {lo hi : Nat} {cells : List Host.Cell} (h : cellsWf lo hi cells = true)
    {a : Nat} (hlo : lo ≤ a) (hhi : a < hi) (v : Byte) :
    cellsWf lo hi (cellsSet cells a v) = true := by
  induction cells generalizing lo with
  | nil => exact cellsWf_cons v hlo hhi rfl
  | cons c rest ih =>
    obtain ⟨k, w⟩ := c
    have hr := h
    simp only [cellsWf, Bool.and_eq_true, decide_eq_true_eq] at hr
    unfold cellsSet
    split
    · refine cellsWf_cons v hlo hhi ?_
      simp only [cellsWf, Bool.and_eq_true, decide_eq_true_eq]
      exact ⟨⟨⟨by omega, hr.1.1.2⟩, hr.1.2⟩, hr.2⟩
    · split
      · next hak => subst hak; exact cellsWf_cons v hlo hhi hr.2
      · simp only [cellsWf, Bool.and_eq_true, decide_eq_true_eq]
        exact ⟨hr.1, ih hr.2 (by omega)⟩

theorem cellsWf_ofBytes (a : Nat) (image : List Byte) :
    cellsWf a (a + image.length) (cellsOfBytes a image) = true := by
  induction image generalizing a with
  | nil => rfl
  | cons b rest ih =>
    refine cellsWf_cons b (Nat.le_refl _) (by simp) ?_
    have := ih (a + 1)
    rwa [List.length_cons, show a + (rest.length + 1) = a + 1 + rest.length by omega]

theorem cellsGet_ofBytes (a k : Nat) (image : List Byte) :
    cellsGet (cellsOfBytes a image) (a + k) = image.getD k Config.unlistedByte := by
  induction image generalizing a k with
  | nil => rfl
  | cons b rest ih =>
    unfold cellsOfBytes
    rw [cellsGet_cons a (a + k) b _ (cellsGet_below (cellsWf_ofBytes (a + 1) rest) (by omega))]
    cases k with
    | zero => simp
    | succ k =>
      have := ih (a + 1) k
      rw [show a + 1 + k = a + (k + 1) by omega] at this
      simp [this]

/-- Canonical cells with the same contents are the same list. -/
theorem cells_ext {lo hi : Nat} {c d : List Host.Cell} (hc : cellsWf lo hi c = true)
    (hd : cellsWf lo hi d = true) (h : ∀ a, cellsGet c a = cellsGet d a) : c = d := by
  induction c generalizing lo d with
  | nil =>
    cases d with
    | nil => rfl
    | cons e rest =>
      obtain ⟨k, v⟩ := e
      simp only [cellsWf, Bool.and_eq_true, decide_eq_true_eq, bne_iff_ne] at hd
      have := h k
      simp only [cellsGet, if_true] at this
      exact absurd this.symm hd.1.2
  | cons e rest ih =>
    obtain ⟨k, v⟩ := e
    simp only [cellsWf, Bool.and_eq_true, decide_eq_true_eq, bne_iff_ne] at hc
    cases d with
    | nil =>
      have := h k
      simp only [cellsGet, if_true] at this
      exact absurd this hc.1.2
    | cons f rest' =>
      obtain ⟨k', v'⟩ := f
      simp only [cellsWf, Bool.and_eq_true, decide_eq_true_eq, bne_iff_ne] at hd
      have hk : k = k' := by
        rcases Nat.lt_trichotomy k k' with hlt | heq | hgt
        · have := h k
          have hne : ¬ k' = k := by omega
          simp only [cellsGet, if_true, hne, if_false] at this
          rw [cellsGet_below hd.2 (by omega)] at this
          exact absurd this hc.1.2
        · exact heq
        · have := h k'
          have hne : ¬ k = k' := by omega
          simp only [cellsGet, if_true, hne, if_false] at this
          rw [cellsGet_below hc.2 (by omega)] at this
          exact absurd this.symm hd.1.2
      subst hk
      have hv : v = v' := by simpa [cellsGet] using h k
      subst hv
      have hrest : rest = rest' := by
        refine ih hc.2 hd.2 fun a => ?_
        by_cases ha : k = a
        · subst ha
          rw [cellsGet_below hc.2 (by omega), cellsGet_below hd.2 (by omega)]
        · simpa [cellsGet, ha] using h a
      rw [hrest]

/-! ## Byte sequences -/

theorem Memory.empty_wf : Memory.empty.wf = true := rfl

theorem Memory.ofBytes_wf (image : List Byte) : (Memory.ofBytes image).wf = true := by
  simpa [Memory.wf, Memory.ofBytes] using cellsWf_ofBytes 0 image

@[simp] theorem Memory.ofBytes_size (image : List Byte) : (Memory.ofBytes image).size = image.length :=
  rfl

/-- Byte `a` of a linked image is the image's byte `a` (R51). -/
theorem Memory.ofBytes_byte (image : List Byte) (a : Nat) :
    (Memory.ofBytes image).byte a = image.getD a Config.unlistedByte := by
  simpa [Memory.byte, Memory.ofBytes] using cellsGet_ofBytes 0 a image

theorem Memory.write_wf {m : Memory} (h : m.wf = true) (a : Nat) (b : Byte) :
    (m.write a b).wf = true :=
  cellsWf_set (cellsWf_mono h (Nat.le_refl _) (Nat.le_max_left ..)) (Nat.zero_le _)
    (by simp) b

@[simp] theorem Memory.write_size (m : Memory) (a : Nat) (b : Byte) :
    (m.write a b).size = max m.size (a + 1) := rfl

/-- A byte written reads back, and every other byte reads as before. -/
theorem Memory.byte_write {m : Memory} (h : m.wf = true) (a c : Nat) (b : Byte) :
    (m.write a b).byte c = if c = a then b else m.byte c :=
  cellsGet_set h a c b

/-- In canonical form, equal size and equal bytes are equal data. -/
theorem Memory.ext_of_bytes {m n : Memory} (hm : m.wf = true) (hn : n.wf = true)
    (hs : m.size = n.size) (h : ∀ a, m.byte a = n.byte a) : m = n := by
  obtain ⟨sz, c⟩ := m
  obtain ⟨sz', d⟩ := n
  simp only at hs
  subst hs
  have hcd : c = d := cells_ext hm hn h
  rw [hcd]

theorem Memory.placeWord_wf {m : Memory} (h : m.wf = true) (a : Nat) (w : Word) :
    (m.placeWord a w).wf = true :=
  write_wf (write_wf (write_wf (write_wf h ..) ..) ..) ..

theorem Memory.placeWord_size (m : Memory) (a : Nat) (w : Word) :
    (m.placeWord a w).size = max m.size (a + 4) := by
  simp only [Memory.placeWord, Memory.write_size]
  omega

/-- The four bytes of a word placed, and every other byte as before. -/
theorem Memory.byte_placeWord {m : Memory} (h : m.wf = true) (a c : Nat) (w : Word) :
    (m.placeWord a w).byte c =
      if c = a then w.extractLsb' 0 8 else if c = a + 1 then w.extractLsb' 8 8
      else if c = a + 2 then w.extractLsb' 16 8 else if c = a + 3 then w.extractLsb' 24 8
      else m.byte c := by
  have h1 := write_wf h a (w.extractLsb' 0 8)
  have h2 := write_wf h1 (a + 1) (w.extractLsb' 8 8)
  have h3 := write_wf h2 (a + 2) (w.extractLsb' 16 8)
  unfold Memory.placeWord
  rw [byte_write h3, byte_write h2, byte_write h1, byte_write h]
  by_cases e0 : c = a
  · simp [e0]
  by_cases e1 : c = a + 1
  · simp [e1]
  by_cases e2 : c = a + 2
  · simp [e2]
  · simp [e0, e1, e2]

end Sys2Proof.Machine
end

