-- ==== Sys2Proof/Laws/Fetch.lean ====
section
/-! SUPPORT. Everything a fetch can do (spec/20_memory.md R57, spec/40_fetch_unit.md R121). -/

namespace Sys2Proof.Machine

/-- The fetch address as a number: the pc with its two low bits cleared. -/
theorem fetchAddr_toNat (pc : Word) : (fetchAddr pc).toNat = pc.toNat / 4 * 4 := by
  have low := and_lowMask pc 2 (by omega)
  rw [show BitVec.ofNat 32 (2 ^ 2 - 1) = 0x00000003#32 from rfl] at low
  have sum : fetchAddr pc + (pc &&& 0x00000003#32) = pc := by
    unfold fetchAddr
    rw [BitVec.add_eq_or_of_and_eq_zero, ← BitVec.and_or_distrib_left]
    · rw [show (0xFFFFFFFC#32 ||| 0x00000003#32) = BitVec.allOnes 32 from rfl, BitVec.and_allOnes]
    · rw [show pc &&& 0xFFFFFFFC#32 &&& (pc &&& 0x00000003#32)
          = pc &&& pc &&& (0xFFFFFFFC#32 &&& 0x00000003#32) by ac_rfl,
        show (0xFFFFFFFC#32 &&& 0x00000003#32) = 0#32 from rfl, BitVec.and_zero]
  have := congrArg BitVec.toNat sum
  rw [BitVec.toNat_add, low] at this
  omega

/-- A fetch raises `NoSource`, raises `OutOfBounds` with the aligned address, or returns the
little-endian word; which one, the link, the size and the address decide. -/
theorem fetch_cases (source : Option Memory) (pc : Word) :
    (source = none ∧ fetch source pc = .error .noSource) ∨
    (∃ m, source = some m ∧ m.size < (fetchAddr pc).toNat + 4 ∧
      fetch source pc = .error (.outOfBounds (fetchAddr pc))) ∨
    (∃ m, source = some m ∧ (fetchAddr pc).toNat + 4 ≤ m.size ∧
      fetch source pc = .ok (wordOfBytes (m.byte (fetchAddr pc).toNat)
        (m.byte ((fetchAddr pc).toNat + 1)) (m.byte ((fetchAddr pc).toNat + 2))
        (m.byte ((fetchAddr pc).toNat + 3)))) := by
  cases source with
  | none => exact .inl ⟨rfl, rfl⟩
  | some m =>
    by_cases h : (fetchAddr pc).toNat + 4 > m.size
    · exact .inr (.inl ⟨m, rfl, h, by simp [fetch, memRead4, h]⟩)
    · exact .inr (.inr ⟨m, rfl, by omega, by simp [fetch, memRead4, h]⟩)

end Sys2Proof.Machine
end

