-- ==== Sys2Proof/Laws/Immediates.lean ====
section
/-! SUPPORT. The five reconstructions of spec/30_encoding.md R89 to R93 as numbers, and what the
multiplexer selects. -/

namespace Sys2Proof.Machine

theorem immU_toNat (w : Word) : (immU w).toNat = w.toNat / 2 ^ 12 * 2 ^ 12 := by
  show BitVec.toNat (w := 20 + 12) _ = _
  simp only [immU, toNat_cat, toNat_slice, BitVec.toNat_ofNat]
  omega

theorem immJ_toNat (w : Word) :
    (immJ w).toNat = w.toNat / 2 ^ 31 * 2 ^ 20 + w.toNat / 2 ^ 12 % 2 ^ 8 * 2 ^ 12
      + w.toNat / 2 ^ 20 % 2 * 2 ^ 11 + w.toNat / 2 ^ 21 % 2 ^ 10 * 2 := by
  show BitVec.toNat (w := 11 + 1 + 8 + 1 + 10 + 1) _ = _
  simp only [immJ, toNat_cat, toNat_slice, BitVec.toNat_ofNat]
  omega

theorem immI_toNat (w : Word) : (immI w).toNat = w.toNat / 2 ^ 20 := by
  show BitVec.toNat (w := 20 + 12) _ = _
  simp only [immI, toNat_cat, toNat_slice, BitVec.toNat_ofNat]
  omega

theorem immB_toNat (w : Word) :
    (immB w).toNat = w.toNat / 2 ^ 31 * 2 ^ 12 + w.toNat / 2 ^ 7 % 2 * 2 ^ 11
      + w.toNat / 2 ^ 25 % 2 ^ 6 * 2 ^ 5 + w.toNat / 2 ^ 8 % 2 ^ 4 * 2 := by
  show BitVec.toNat (w := 19 + 1 + 1 + 6 + 4 + 1) _ = _
  simp only [immB, toNat_cat, toNat_slice, BitVec.toNat_ofNat]
  omega

theorem immS_toNat (w : Word) :
    (immS w).toNat = w.toNat / 2 ^ 25 * 2 ^ 5 + w.toNat / 2 ^ 7 % 2 ^ 5 := by
  show BitVec.toNat (w := 20 + 7 + 5) _ = _
  simp only [immS, toNat_cat, toNat_slice, BitVec.toNat_ofNat]
  omega

/-! ## Bit by bit -/

theorem immU_bit (w : Word) (i : Nat) (hi : i < 32) : (immU w)[i] =
    if i < 12 then false else w.getLsbD i := by
  rw [← BitVec.getLsbD_eq_getElem]
  show BitVec.getLsbD (w := 20 + 12) _ i = _
  simp only [immU, BitVec.getLsbD_append, BitVec.getLsbD_extractLsb']
  interval_cases i <;> simp

theorem immJ_bit (w : Word) (i : Nat) (hi : i < 32) : (immJ w)[i] =
    if i < 1 then false else if i < 11 then w.getLsbD (i + 20) else if i = 11 then w.getLsbD 20
    else if i < 20 then w.getLsbD i else if i = 20 then w.getLsbD 31 else false := by
  rw [← BitVec.getLsbD_eq_getElem]
  show BitVec.getLsbD (w := 11 + 1 + 8 + 1 + 10 + 1) _ i = _
  simp only [immJ, BitVec.getLsbD_append, BitVec.getLsbD_extractLsb']
  interval_cases i <;> simp

theorem immI_bit (w : Word) (i : Nat) (hi : i < 32) : (immI w)[i] =
    if i < 12 then w.getLsbD (i + 20) else false := by
  rw [← BitVec.getLsbD_eq_getElem]
  show BitVec.getLsbD (w := 20 + 12) _ i = _
  simp only [immI, BitVec.getLsbD_append, BitVec.getLsbD_extractLsb']
  interval_cases i <;> simp

theorem immB_bit (w : Word) (i : Nat) (hi : i < 32) : (immB w)[i] =
    if i < 1 then false else if i < 5 then w.getLsbD (i + 7) else if i < 11 then w.getLsbD (i + 20)
    else if i = 11 then w.getLsbD 7 else if i = 12 then w.getLsbD 31 else false := by
  rw [← BitVec.getLsbD_eq_getElem]
  show BitVec.getLsbD (w := 19 + 1 + 1 + 6 + 4 + 1) _ i = _
  simp only [immB, BitVec.getLsbD_append, BitVec.getLsbD_extractLsb']
  interval_cases i <;> simp

theorem immS_bit (w : Word) (i : Nat) (hi : i < 32) : (immS w)[i] =
    if i < 5 then w.getLsbD (i + 7) else if i < 12 then w.getLsbD (i + 20) else false := by
  rw [← BitVec.getLsbD_eq_getElem]
  show BitVec.getLsbD (w := 20 + 7 + 5) _ i = _
  simp only [immS, BitVec.getLsbD_append, BitVec.getLsbD_extractLsb']
  interval_cases i <;> simp

/-- Everything the multiplexer can answer (R171): one of the five reconstructions, under the opcodes
that select it, or 0. -/
theorem decodeImmediate_cases (w : Word) (op : Opcode) :
    ((op = 0b0110111#7 ∨ op = 0b0010111#7) ∧ decodeImmediate w op = immU w) ∨
    (op = 0b1101111#7 ∧ decodeImmediate w op = immJ w) ∨
    ((op = 0b1100111#7 ∨ op = 0b0000011#7) ∧ decodeImmediate w op = immI w) ∨
    (op = 0b1100011#7 ∧ decodeImmediate w op = immB w) ∨
    (op = 0b0100011#7 ∧ decodeImmediate w op = immS w) ∨
    (op ∉ [0b0110111#7, 0b0010111#7, 0b1101111#7, 0b1100111#7, 0b0000011#7, 0b1100011#7,
      0b0100011#7] ∧ decodeImmediate w op = 0) := by
  unfold decodeImmediate
  split <;> simp_all

end Sys2Proof.Machine
end

