-- ==== Sys2Proof/Laws/PerInstr.lean ====
section
/-! SUPPORT. Facts that hold of every instruction as syntax, one lemma per constructor. -/

namespace Sys2Proof.Laws

/-- A word's low seven bits decide every row whose mask is 0x7F. -/
theorem fits_of_opcode (name : String) (w : Word) (op : Opcode) (h : w.extractLsb' 0 7 = op) :
    (Row.mk name 0x0000007F#32 (op.setWidth 32)).fits w = true := by
  have hm : w &&& 0x0000007F#32 = op.setWidth 32 := by
    apply BitVec.eq_of_toNat_eq
    have := and_lowMask w 7 (by omega)
    rw [← h, BitVec.toNat_setWidth, toNat_slice]
    rw [show BitVec.ofNat 32 (2 ^ 7 - 1) = 0x0000007F#32 from rfl] at this
    omega
  simp [Row.fits, hm]

/-- A word's low two bits decide the rows whose mask is 3. -/
theorem fits_of_low2 (name : String) (w : Word) (k : BitVec 2) (h : w.toNat % 4 = k.toNat) :
    (Row.mk name 0x00000003#32 (k.setWidth 32)).fits w = true := by
  have hm : w &&& 0x00000003#32 = k.setWidth 32 := by
    apply BitVec.eq_of_toNat_eq
    have := and_lowMask w 2 (by omega)
    rw [BitVec.toNat_setWidth]
    rw [show BitVec.ofNat 32 (2 ^ 2 - 1) = 0x00000003#32 from rfl] at this
    omega
  simp [Row.fits, hm]

/-- A word's low five bits decide the row whose mask is 0x1F. -/
theorem fits_of_low5 (name : String) (w : Word) (h : w.toNat % 32 = 31) :
    (Row.mk name 0x0000001F#32 0x0000001F#32).fits w = true := by
  have hm : w &&& 0x0000001F#32 = 0x0000001F#32 := by
    apply BitVec.eq_of_toNat_eq
    have := and_lowMask w 5 (by omega)
    rw [show BitVec.ofNat 32 (2 ^ 5 - 1) = 0x0000001F#32 from rfl] at this
    rw [this]
    exact h
  simp [Row.fits, hm]

/-- SUB's mask keeps funct7, funct3 and the opcode. -/
theorem and_subMask (w : Word) :
    w &&& 0xFE00707F#32
      = encR (w.extractLsb' 25 7) 0#5 0#5 (w.extractLsb' 12 3) 0#5 (w.extractLsb' 0 7) := by
  have h7 := and_lowMask w 7 (by omega)
  rw [show BitVec.ofNat 32 (2 ^ 7 - 1) = 0x0000007F#32 from rfl] at h7
  have split : w &&& 0xFE00707F#32
      = (w &&& 0xFE000000#32) ||| (w &&& 0x00007000#32) ||| (w &&& 0x0000007F#32) := by
    rw [← BitVec.and_or_distrib_left, ← BitVec.and_or_distrib_left]
    rfl
  rw [split]
  apply BitVec.eq_of_getLsbD_eq
  intro i hi
  simp only [BitVec.getLsbD_or, BitVec.getLsbD_and]
  have hb : (encR (w.extractLsb' 25 7) 0#5 0#5 (w.extractLsb' 12 3) 0#5 (w.extractLsb' 0 7)).getLsbD i
      = (if i < 7 then w.getLsbD i else if i < 12 then false else if i < 15 then w.getLsbD i
          else if i < 25 then false else w.getLsbD i) := by
    show BitVec.getLsbD (w := 7 + 5 + 5 + 3 + 5 + 7) _ i = _
    simp only [encR, BitVec.getLsbD_append, BitVec.getLsbD_extractLsb']
    interval_cases i <;> simp
  rw [hb]
  interval_cases i <;> simp

namespace FitsItsRow

/-- The word of an instruction is a word of the instruction's row of spec/opcode_table.json. -/
def Statement (i : Instr) : Prop := (rowOf i).fits (encode i) = true

theorem lui (rd : RegIndex) (imm : BitVec 20) : Statement (.lui rd imm) :=
  fits_of_opcode "LUI" _ 0b0110111#7 (encU_opcode ..)

theorem auipc (rd : RegIndex) (imm : BitVec 20) : Statement (.auipc rd imm) :=
  fits_of_opcode "AUIPC" _ 0b0010111#7 (encU_opcode ..)

theorem jal (rd : RegIndex) (imm : BitVec 20) : Statement (.jal rd imm) :=
  fits_of_opcode "JAL" _ 0b1101111#7 (encJ_opcode ..)

theorem jalr (rd : RegIndex) (funct3 : Funct3) (rs1 : RegIndex) (imm : BitVec 12) : Statement (.jalr rd funct3 rs1 imm) :=
  fits_of_opcode "JALR" _ 0b1100111#7 (encI_opcode ..)

theorem load (rd : RegIndex) (funct3 : Funct3) (rs1 : RegIndex) (imm : BitVec 12) : Statement (.load rd funct3 rs1 imm) :=
  fits_of_opcode "LOAD" _ 0b0000011#7 (encI_opcode ..)

theorem branch (funct3 : Funct3) (rs1 rs2 : RegIndex) (imm : BitVec 12) : Statement (.branch funct3 rs1 rs2 imm) :=
  fits_of_opcode "BRANCH" _ 0b1100011#7 (encB_opcode ..)

theorem store (funct3 : Funct3) (rs1 rs2 : RegIndex) (imm : BitVec 12) : Statement (.store funct3 rs1 rs2 imm) :=
  fits_of_opcode "STORE" _ 0b0100011#7 (encS_opcode ..)

theorem opImm (rd : RegIndex) (funct3 : Funct3) (rs1 : RegIndex) (hi : BitVec 12) : Statement (.opImm rd funct3 rs1 hi) :=
  fits_of_opcode "OP_IMM" _ 0b0010011#7 (encI_opcode ..)

theorem op (funct7 : Funct7) (rs2 rs1 : RegIndex) (funct3 : Funct3) (rd : RegIndex) : Statement (.op funct7 rs2 rs1 funct3 rd) :=
  fits_of_opcode "OP" _ 0b0110011#7 (encR_opcode ..)

theorem sub (rs2 rs1 rd : RegIndex) : Statement (.sub rs2 rs1 rd) := by
  show (encR 0b0100000#7 rs2 rs1 0b000#3 rd 0b0110011#7 &&& 0xFE00707F#32 == 0x40000033#32) = true
  rw [and_subMask, encR_funct7, encR_funct3, encR_opcode]
  decide

theorem opc0000111 (funct7 : Funct7) (rs2 rs1 : RegIndex) (funct3 : Funct3) (rd : RegIndex) : Statement (.opc0000111 funct7 rs2 rs1 funct3 rd) :=
  fits_of_opcode "OPC_0000111" _ 0b0000111#7 (encR_opcode ..)

theorem opc0001011 (funct7 : Funct7) (rs2 rs1 : RegIndex) (funct3 : Funct3) (rd : RegIndex) : Statement (.opc0001011 funct7 rs2 rs1 funct3 rd) :=
  fits_of_opcode "OPC_0001011" _ 0b0001011#7 (encR_opcode ..)

theorem opc0001111 (funct7 : Funct7) (rs2 rs1 : RegIndex) (funct3 : Funct3) (rd : RegIndex) : Statement (.opc0001111 funct7 rs2 rs1 funct3 rd) :=
  fits_of_opcode "OPC_0001111" _ 0b0001111#7 (encR_opcode ..)

theorem opc0011011 (funct7 : Funct7) (rs2 rs1 : RegIndex) (funct3 : Funct3) (rd : RegIndex) : Statement (.opc0011011 funct7 rs2 rs1 funct3 rd) :=
  fits_of_opcode "OPC_0011011" _ 0b0011011#7 (encR_opcode ..)

theorem opc0100111 (funct7 : Funct7) (rs2 rs1 : RegIndex) (funct3 : Funct3) (rd : RegIndex) : Statement (.opc0100111 funct7 rs2 rs1 funct3 rd) :=
  fits_of_opcode "OPC_0100111" _ 0b0100111#7 (encR_opcode ..)

theorem opc0101011 (funct7 : Funct7) (rs2 rs1 : RegIndex) (funct3 : Funct3) (rd : RegIndex) : Statement (.opc0101011 funct7 rs2 rs1 funct3 rd) :=
  fits_of_opcode "OPC_0101011" _ 0b0101011#7 (encR_opcode ..)

theorem opc0101111 (funct7 : Funct7) (rs2 rs1 : RegIndex) (funct3 : Funct3) (rd : RegIndex) : Statement (.opc0101111 funct7 rs2 rs1 funct3 rd) :=
  fits_of_opcode "OPC_0101111" _ 0b0101111#7 (encR_opcode ..)

theorem opc0111011 (funct7 : Funct7) (rs2 rs1 : RegIndex) (funct3 : Funct3) (rd : RegIndex) : Statement (.opc0111011 funct7 rs2 rs1 funct3 rd) :=
  fits_of_opcode "OPC_0111011" _ 0b0111011#7 (encR_opcode ..)

theorem opc1000011 (funct7 : Funct7) (rs2 rs1 : RegIndex) (funct3 : Funct3) (rd : RegIndex) : Statement (.opc1000011 funct7 rs2 rs1 funct3 rd) :=
  fits_of_opcode "OPC_1000011" _ 0b1000011#7 (encR_opcode ..)

theorem opc1000111 (funct7 : Funct7) (rs2 rs1 : RegIndex) (funct3 : Funct3) (rd : RegIndex) : Statement (.opc1000111 funct7 rs2 rs1 funct3 rd) :=
  fits_of_opcode "OPC_1000111" _ 0b1000111#7 (encR_opcode ..)

theorem opc1001011 (funct7 : Funct7) (rs2 rs1 : RegIndex) (funct3 : Funct3) (rd : RegIndex) : Statement (.opc1001011 funct7 rs2 rs1 funct3 rd) :=
  fits_of_opcode "OPC_1001011" _ 0b1001011#7 (encR_opcode ..)

theorem opc1001111 (funct7 : Funct7) (rs2 rs1 : RegIndex) (funct3 : Funct3) (rd : RegIndex) : Statement (.opc1001111 funct7 rs2 rs1 funct3 rd) :=
  fits_of_opcode "OPC_1001111" _ 0b1001111#7 (encR_opcode ..)

theorem opc1010011 (funct7 : Funct7) (rs2 rs1 : RegIndex) (funct3 : Funct3) (rd : RegIndex) : Statement (.opc1010011 funct7 rs2 rs1 funct3 rd) :=
  fits_of_opcode "OPC_1010011" _ 0b1010011#7 (encR_opcode ..)

theorem opc1010111 (funct7 : Funct7) (rs2 rs1 : RegIndex) (funct3 : Funct3) (rd : RegIndex) : Statement (.opc1010111 funct7 rs2 rs1 funct3 rd) :=
  fits_of_opcode "OPC_1010111" _ 0b1010111#7 (encR_opcode ..)

theorem opc1011011 (funct7 : Funct7) (rs2 rs1 : RegIndex) (funct3 : Funct3) (rd : RegIndex) : Statement (.opc1011011 funct7 rs2 rs1 funct3 rd) :=
  fits_of_opcode "OPC_1011011" _ 0b1011011#7 (encR_opcode ..)

theorem opc1101011 (funct7 : Funct7) (rs2 rs1 : RegIndex) (funct3 : Funct3) (rd : RegIndex) : Statement (.opc1101011 funct7 rs2 rs1 funct3 rd) :=
  fits_of_opcode "OPC_1101011" _ 0b1101011#7 (encR_opcode ..)

theorem opc1110011 (funct7 : Funct7) (rs2 rs1 : RegIndex) (funct3 : Funct3) (rd : RegIndex) : Statement (.opc1110011 funct7 rs2 rs1 funct3 rd) :=
  fits_of_opcode "OPC_1110011" _ 0b1110011#7 (encR_opcode ..)

theorem opc1110111 (funct7 : Funct7) (rs2 rs1 : RegIndex) (funct3 : Funct3) (rd : RegIndex) : Statement (.opc1110111 funct7 rs2 rs1 funct3 rd) :=
  fits_of_opcode "OPC_1110111" _ 0b1110111#7 (encR_opcode ..)

theorem opc1111011 (funct7 : Funct7) (rs2 rs1 : RegIndex) (funct3 : Funct3) (rd : RegIndex) : Statement (.opc1111011 funct7 rs2 rs1 funct3 rd) :=
  fits_of_opcode "OPC_1111011" _ 0b1111011#7 (encR_opcode ..)

theorem not32Low00 (rest : BitVec 30) : Statement (.not32Low00 rest) :=
  fits_of_low2 "NOT32_LOW00" _ 0b00#2 (by rw [encode_low00_toNat]; simp)

theorem not32Low01 (rest : BitVec 30) : Statement (.not32Low01 rest) :=
  fits_of_low2 "NOT32_LOW01" _ 0b01#2 (by rw [encode_low01_toNat]; simp)

theorem not32Low10 (rest : BitVec 30) : Statement (.not32Low10 rest) :=
  fits_of_low2 "NOT32_LOW10" _ 0b10#2 (by rw [encode_low10_toNat]; simp)

theorem not32Long (rest : BitVec 27) : Statement (.not32Long rest) :=
  fits_of_low5 "NOT32_LONG" _ (by rw [encode_long_toNat]; omega)

end FitsItsRow

end Sys2Proof.Laws
end

