-- ==== Sys2Proof/Laws/State.lean ====
section
/-! SUPPORT. One lemma per field per state update, and what each way of ending an operation does. -/

namespace Sys2Proof.Machine

section
variable (s : State) (r : Vector Word 32) (w : Word) (m : Option Memory) (c : List Call) (o : Output)

@[simp] theorem setRegs_regs : (s.setRegs r).regs = r := rfl
@[simp] theorem setRegs_pc : (s.setRegs r).pc = s.pc := rfl
@[simp] theorem setRegs_source : (s.setRegs r).source = s.source := rfl
@[simp] theorem setRegs_dataSource : (s.setRegs r).dataSource = s.dataSource := rfl
@[simp] theorem setRegs_calls : (s.setRegs r).calls = s.calls := rfl
@[simp] theorem setRegs_onError : (s.setRegs r).onError = s.onError := rfl
@[simp] theorem setRegs_output : (s.setRegs r).output = s.output := rfl

@[simp] theorem setPc_regs : (s.setPc w).regs = s.regs := rfl
@[simp] theorem setPc_pc : (s.setPc w).pc = w := rfl
@[simp] theorem setPc_source : (s.setPc w).source = s.source := rfl
@[simp] theorem setPc_dataSource : (s.setPc w).dataSource = s.dataSource := rfl
@[simp] theorem setPc_calls : (s.setPc w).calls = s.calls := rfl
@[simp] theorem setPc_onError : (s.setPc w).onError = s.onError := rfl
@[simp] theorem setPc_output : (s.setPc w).output = s.output := rfl

@[simp] theorem setSource_regs : (s.setSource m).regs = s.regs := rfl
@[simp] theorem setSource_pc : (s.setSource m).pc = s.pc := rfl
@[simp] theorem setSource_source : (s.setSource m).source = m := rfl
@[simp] theorem setSource_dataSource : (s.setSource m).dataSource = s.dataSource := rfl
@[simp] theorem setSource_calls : (s.setSource m).calls = s.calls := rfl
@[simp] theorem setSource_onError : (s.setSource m).onError = s.onError := rfl
@[simp] theorem setSource_output : (s.setSource m).output = s.output := rfl

@[simp] theorem setDataSource_regs : (s.setDataSource m).regs = s.regs := rfl
@[simp] theorem setDataSource_pc : (s.setDataSource m).pc = s.pc := rfl
@[simp] theorem setDataSource_source : (s.setDataSource m).source = s.source := rfl
@[simp] theorem setDataSource_dataSource : (s.setDataSource m).dataSource = m := rfl
@[simp] theorem setDataSource_calls : (s.setDataSource m).calls = s.calls := rfl
@[simp] theorem setDataSource_onError : (s.setDataSource m).onError = s.onError := rfl
@[simp] theorem setDataSource_output : (s.setDataSource m).output = s.output := rfl

@[simp] theorem setCalls_regs : (s.setCalls c).regs = s.regs := rfl
@[simp] theorem setCalls_pc : (s.setCalls c).pc = s.pc := rfl
@[simp] theorem setCalls_source : (s.setCalls c).source = s.source := rfl
@[simp] theorem setCalls_dataSource : (s.setCalls c).dataSource = s.dataSource := rfl
@[simp] theorem setCalls_calls : (s.setCalls c).calls = c := rfl
@[simp] theorem setCalls_onError : (s.setCalls c).onError = s.onError := rfl
@[simp] theorem setCalls_output : (s.setCalls c).output = s.output := rfl

@[simp] theorem setOutput_regs : (s.setOutput o).regs = s.regs := rfl
@[simp] theorem setOutput_pc : (s.setOutput o).pc = s.pc := rfl
@[simp] theorem setOutput_source : (s.setOutput o).source = s.source := rfl
@[simp] theorem setOutput_dataSource : (s.setOutput o).dataSource = s.dataSource := rfl
@[simp] theorem setOutput_calls : (s.setOutput o).calls = s.calls := rfl
@[simp] theorem setOutput_onError : (s.setOutput o).onError = s.onError := rfl
@[simp] theorem setOutput_output : (s.setOutput o).output = some o := rfl

end

/-- Raising an error ends the run or notes the error; nothing else can happen (R258). -/
theorem raise_cases (s : State) (e : Fault) :
    (s.onError = .stop ∧ raise s e = .fault e) ∨
    (s.onError = .goOn ∧ raise s e = .next (s.setOutput (.error e))) := by
  unfold raise finish
  cases h : s.onError <;> simp

end Sys2Proof.Machine
end

