-- ==== Sys2Proof/Laws/Registers.lean ====
section
/-! SUPPORT. Reading and writing the register file (spec/10_state.md R22, R24). -/

namespace Sys2Proof.Machine

@[simp] theorem readX_zero (s : State) : readX s 0#5 = 0#32 := by simp [readX]

@[simp] theorem writeX_zero (s : State) (v : Word) : writeX s 0#5 v = s := by simp [writeX]

/-- A write changes the one register it names, and register 0 not even then. -/
theorem readX_writeX (s : State) (i j : RegIndex) (v : Word) :
    readX (writeX s i v) j = if j ≠ 0#5 ∧ j = i then v else readX s j := by
  by_cases hi : i = 0#5
  · subst hi
    have : ¬ (j ≠ 0#5 ∧ j = 0#5) := fun h => h.1 h.2
    simp [this]
  · by_cases hj : j = 0#5
    · simp [hj]
    · have hij : i.toNat = j.toNat ↔ j = i :=
        ⟨fun h => (BitVec.eq_of_toNat_eq h).symm, fun h => by rw [h]⟩
      simp only [readX, writeX, if_neg hi, if_neg hj, setRegs_regs, Vector.getElem_set, hij]
      simp [hj]

/-- A write reaches nothing but the file. -/
theorem writeX_frame (s : State) (i : RegIndex) (v : Word) :
    (writeX s i v).pc = s.pc ∧ (writeX s i v).source = s.source ∧
    (writeX s i v).dataSource = s.dataSource ∧ (writeX s i v).calls = s.calls ∧
    (writeX s i v).onError = s.onError ∧ (writeX s i v).output = s.output := by
  unfold writeX
  split <;> simp

/-- The cell behind register 0 is never written by `writeX`. -/
theorem writeX_zeroCell (s : State) (i : RegIndex) (v : Word) :
    (writeX s i v).regs[0] = s.regs[0] := by
  unfold writeX
  split
  · rfl
  · next hi =>
    have : i.toNat ≠ 0 := fun h => hi (BitVec.eq_of_toNat_eq (by simpa using h))
    simp only [setRegs_regs, Vector.getElem_set, if_neg this]

@[simp] theorem readX_resetRegisters (s : State) (i : RegIndex) :
    readX (resetRegisters s) i = 0#32 := by
  simp [readX, resetRegisters]

end Sys2Proof.Machine
end

