-- ==== Sys2Proof/Laws/Step.lean ====
section
/-! SUPPORT. What an instruction, a decode cycle and a fetch call can do, said once. -/

namespace Sys2Proof.Machine

/-- Every instruction runs in every state, and all it does is drive the output ports with values that
depend on the instruction alone (spec/43_opcode_classes.md R228). -/
theorem exec_drives (i : Instr) : ∃ d, ∀ s, exec i s = .next (s.setOutput (.decoded d)) := by
  cases i <;> exact ⟨_, fun _ => rfl⟩

/-- Taking the next operation off the list changes nothing else. -/
@[simp] theorem dropCall_regs (s : State) : (dropCall s).regs = s.regs := rfl
@[simp] theorem dropCall_pc (s : State) : (dropCall s).pc = s.pc := rfl
@[simp] theorem dropCall_source (s : State) : (dropCall s).source = s.source := rfl
@[simp] theorem dropCall_dataSource (s : State) : (dropCall s).dataSource = s.dataSource := rfl
@[simp] theorem dropCall_calls (s : State) : (dropCall s).calls = s.calls.tail := rfl
@[simp] theorem dropCall_onError (s : State) : (dropCall s).onError = s.onError := rfl
@[simp] theorem dropCall_output (s : State) : (dropCall s).output = s.output := rfl

/-- A decode cycle ends in the error its fetch raised or runs the fetched word's instruction. -/
theorem decodeCycle_cases (pc : Word) (s : State) :
    (∃ e, fetch s.source pc = .error e ∧ decodeCycle pc s = raise s e) ∨
    (∃ w, fetch s.source pc = .ok w ∧ decodeCycle pc s = exec (decodeWord w) s) := by
  unfold decodeCycle
  cases h : fetch s.source pc with
  | error e => exact .inl ⟨e, rfl, rfl⟩
  | ok w => exact .inr ⟨w, rfl, rfl⟩

/-- A fetch call ends in the error its fetch raised or hands the word back. -/
theorem callFetch_cases (pc : Word) (s : State) :
    (∃ e, fetch s.source pc = .error e ∧ callFetch pc s = raise s e) ∨
    (∃ w, fetch s.source pc = .ok w ∧ callFetch pc s = .next (s.setOutput (.word w))) := by
  unfold callFetch
  cases h : fetch s.source pc with
  | error e => exact .inl ⟨e, rfl, rfl⟩
  | ok w => exact .inr ⟨w, rfl, rfl⟩

/-- Everything one operation can end in: a fault of a fetch whose caller stops; or a next state that
differs from the one before in the output and, for the calls that write state, in the one field that
call names. -/
theorem perform_cases (c : Call) (s : State) :
    (∃ e, s.onError = .stop ∧ perform c s = .fault e) ∨
    (∃ o, perform c s = .next (s.setOutput o)) ∨
    (c = .reset ∧ perform c s = .next ((resetRegisters s).setOutput .done)) ∨
    (∃ image, c = .linkSource image ∧
      perform c s = .next ((s.setSource (some (Memory.ofBytes image))).setOutput .done)) ∨
    (∃ image, c = .linkData image ∧
      perform c s = .next ((s.setDataSource (some (Memory.ofBytes image))).setOutput .done)) ∨
    (∃ r v, c = .writeReg r v ∧
      perform c s = .next ((writeX s r.slot (truncate v)).setOutput .done)) ∨
    (∃ v, c = .writePc v ∧ perform c s = .next ((s.setPc (truncate v)).setOutput .done)) := by
  cases c with
  | reset => exact .inr (.inr (.inl ⟨rfl, rfl⟩))
  | linkSource image => exact .inr (.inr (.inr (.inl ⟨image, rfl, rfl⟩)))
  | linkData image => exact .inr (.inr (.inr (.inr (.inl ⟨image, rfl, rfl⟩))))
  | writeReg r v => exact .inr (.inr (.inr (.inr (.inr (.inl ⟨r, v, rfl, rfl⟩)))))
  | writePc v => exact .inr (.inr (.inr (.inr (.inr (.inr ⟨v, rfl, rfl⟩)))))
  | fetch pc =>
    obtain ⟨e, _, h⟩ | ⟨w, _, h⟩ := callFetch_cases (pc.eval s) s
    · obtain ⟨hs, hr⟩ | ⟨_, hr⟩ := raise_cases s e
      · exact .inl ⟨e, hs, h.trans hr⟩
      · exact .inr (.inl ⟨_, h.trans hr⟩)
    · exact .inr (.inl ⟨_, h⟩)
  | decodeCycle pc =>
    obtain ⟨e, _, h⟩ | ⟨w, _, h⟩ := decodeCycle_cases (pc.eval s) s
    · obtain ⟨hs, hr⟩ | ⟨_, hr⟩ := raise_cases s e
      · exact .inl ⟨e, hs, h.trans hr⟩
      · exact .inr (.inl ⟨_, h.trans hr⟩)
    · obtain ⟨d, hd⟩ := exec_drives (decodeWord w)
      exact .inr (.inl ⟨_, h.trans (hd s)⟩)
  | decodeFields _ => exact .inr (.inl ⟨_, rfl⟩)
  | decodeImmediate _ _ => exact .inr (.inl ⟨_, rfl⟩)
  | dump => exact .inr (.inl ⟨_, rfl⟩)
  | link _ => exact .inr (.inl ⟨_, rfl⟩)
  | readReg _ => exact .inr (.inl ⟨_, rfl⟩)
  | readPc => exact .inr (.inl ⟨_, rfl⟩)

end Sys2Proof.Machine
end

