-- ==== Sys2Proof/Tests/Slice0.lean ====
section
/-! SUPPORT. Small tests: WellFormed, one decoding of every constructor from a word written out bit by
bit, one or two steps of every class, the fetch, register and dump vectors, and for every statement
with hypotheses a concrete case that meets them. Expected values come from spec/95_test_vectors.md
(the vector's name is given: E1 to X11, V-R1 to V-R8, P1 to P4) or from the rule named. -/

namespace Sys2Proof.Tests

open Sys2Proof.Machine

/-! ## Helpers -/

/-- A vector row of spec/95_test_vectors.md, in its order of columns. -/
def row (success : Bool) (opcode : Opcode) (funct3 : Funct3) (funct7 : Funct7)
    (rs1 rs2 rd : RegIndex) (imm : Word) : Decoded :=
  { fields := { opcode, funct3, funct7, rs1, rs2, rd, success }, imm }

/-- The row of a word that is not of 32-bit format. -/
def zeroRow : Decoded := row false 0 0 0 0 0 0 0

/-- What an outcome hands back; an error that ends the run shows as the error. -/
def shown : Outcome → Option Output
  | .next t => t.output
  | .fault e => some (.error e)
  | .refused _ => none

/-- What the first step after reset hands back when it runs the word `w`. -/
def runWord (w : Nat) : Option Output := shown (step (State.reset.withFetchWord 32 w))

/-- The word's row, by the instruction's step and by the block. -/
abbrev gives (w : Nat) (d : Decoded) : Prop :=
  runWord w = some (.decoded d) ∧ decodeBlock (BitVec.ofNat 32 w) = d

/-- Instruction source F of section 2.10. -/
def imageF : List Byte := [0xB3, 0x00, 0x31, 0x40, 0x37, 0x30, 0x1F, 0x83, 0x6F, 0xD0]

/-- After construction, with F linked. -/
def stateF : State := State.reset.setSource (some (Memory.ofBytes imageF))

/-- `stateF` with one operation of the caller to come. -/
def calling (c : Call) : State := stateF.setCalls [c]

/-- `fetch` on F at a pc. -/
def fetchF (pc : Word) : Except Fault Word := fetch stateF.source pc

/-- The next state of an outcome, the given one where there is none. -/
def nextOr (s : State) : Outcome → State
  | .next t => t
  | _ => s

/-! ## WellFormed -/

/-- SUB's function codes in an `op` are refused (R220). -/
theorem test_wf_refuses_op_with_sub_codes : (Instr.op 0b0100000 3 2 0 1).wf = false := by decide

/-- Either code alone is `op`, and `sub` is well-formed. -/
theorem test_wf_accepts_neighbours :
    (Instr.op 0b0100000 3 2 1 1).wf = true ∧ (Instr.op 0b0100001 3 2 0 1).wf = true ∧
    (Instr.op 0 3 2 0 1).wf = true ∧ (Instr.sub 3 2 1).wf = true := by decide

/-- The ill-formed term's word decodes to `sub`, the instruction it is. -/
theorem test_ill_formed_word_is_sub :
    decodeWord (encode (.op 0b0100000 3 2 0 1)) = .sub 3 2 1 := by decide

/-! ## Decoding: words written out bit by bit from the layouts of R83 to R88 -/

/-- U format, `imm[31:12] rd opcode` (R87): E5 and U4. -/
theorem test_decode_U :
    decodeWord 0b10000011000111110011_00000_0110111 = .lui 0 0x831F3 ∧
    decodeWord 0b00010010001101000101_00101_0010111 = .auipc 5 0x12345 := by decide

/-- J format, `imm[20|10:1|11|19:12] rd opcode` (R88): E6, and J4, where only imm[11] is set. -/
theorem test_decode_J :
    decodeWord 0b1_1110011000_1_11001101_00000_1101111 = .jal 0 0b1_11001101_1_1110011000 ∧
    decodeWord 0b0_0000000000_1_00000000_00000_1101111 = .jal 0 0b0_00000000_1_0000000000 := by
  decide

/-- I format, `imm[11:0] rs1 funct3 rd opcode` (R84): I2, I4, I8. -/
theorem test_decode_I :
    decodeWord 0b111111111111_00001_000_00000_1100111 = .jalr 0 0 1 0xFFF ∧
    decodeWord 0b000000000100_00010_010_00101_0000011 = .load 5 2 2 4 ∧
    decodeWord 0b111111111111_00000_000_00001_0010011 = .opImm 1 0 0 0xFFF := by decide

/-- B format, `imm[12|10:5] rs2 rs1 funct3 imm[4:1|11] opcode` (R86): E7 and B4. -/
theorem test_decode_B :
    decodeWord 0b0_100010_00000_00000_000_0111_1_1100011 = .branch 0 0 0 0b0_1_100010_0111 ∧
    decodeWord 0b0_000000_00000_00000_000_0000_1_1100011 = .branch 0 0 0 0b0_1_000000_0000 := by
  decide

/-- S format, `imm[11:5] rs2 rs1 funct3 imm[4:0] opcode` (R85): S5. -/
theorem test_decode_S :
    decodeWord 0b0000000_00101_00010_010_01000_0100011 = .store 2 2 5 8 := by decide

/-- R format, `funct7 rs2 rs1 funct3 rd opcode` (R83): E4, and with another funct7. -/
theorem test_decode_R :
    decodeWord 0b0100000_00011_00010_000_00001_0110011 = .sub 3 2 1 ∧
    decodeWord 0b0000000_00011_00010_000_00001_0110011 = .op 0 3 2 0 1 := by decide

/-- The unnamed opcodes, in the R layout (R221): the mixed pattern of section 2.3. -/
theorem test_decode_unnamed :
    decodeWord 0b1010010_11010_01011_010_01011_0000111 = .opc0000111 0b1010010 26 11 2 11 ∧
    decodeWord 0b1010010_11010_01011_010_01011_0001011 = .opc0001011 0b1010010 26 11 2 11 ∧
    decodeWord 0b1010010_11010_01011_010_01011_0001111 = .opc0001111 0b1010010 26 11 2 11 ∧
    decodeWord 0b1010010_11010_01011_010_01011_0011011 = .opc0011011 0b1010010 26 11 2 11 ∧
    decodeWord 0b1010010_11010_01011_010_01011_0100111 = .opc0100111 0b1010010 26 11 2 11 ∧
    decodeWord 0b1010010_11010_01011_010_01011_0101011 = .opc0101011 0b1010010 26 11 2 11 ∧
    decodeWord 0b1010010_11010_01011_010_01011_0101111 = .opc0101111 0b1010010 26 11 2 11 ∧
    decodeWord 0b1010010_11010_01011_010_01011_0111011 = .opc0111011 0b1010010 26 11 2 11 ∧
    decodeWord 0b1010010_11010_01011_010_01011_1000011 = .opc1000011 0b1010010 26 11 2 11 ∧
    decodeWord 0b1010010_11010_01011_010_01011_1000111 = .opc1000111 0b1010010 26 11 2 11 ∧
    decodeWord 0b1010010_11010_01011_010_01011_1001011 = .opc1001011 0b1010010 26 11 2 11 ∧
    decodeWord 0b1010010_11010_01011_010_01011_1001111 = .opc1001111 0b1010010 26 11 2 11 ∧
    decodeWord 0b1010010_11010_01011_010_01011_1010011 = .opc1010011 0b1010010 26 11 2 11 ∧
    decodeWord 0b1010010_11010_01011_010_01011_1010111 = .opc1010111 0b1010010 26 11 2 11 ∧
    decodeWord 0b1010010_11010_01011_010_01011_1011011 = .opc1011011 0b1010010 26 11 2 11 ∧
    decodeWord 0b1010010_11010_01011_010_01011_1101011 = .opc1101011 0b1010010 26 11 2 11 ∧
    decodeWord 0b1010010_11010_01011_010_01011_1110011 = .opc1110011 0b1010010 26 11 2 11 ∧
    decodeWord 0b1010010_11010_01011_010_01011_1110111 = .opc1110111 0b1010010 26 11 2 11 ∧
    decodeWord 0b1010010_11010_01011_010_01011_1111011 = .opc1111011 0b1010010 26 11 2 11 := by decide

/-- Words that are not of 32-bit format (R81): N2, N4, N5, N8. -/
theorem test_decode_not32 :
    decodeWord 0b111111111111111111111111111111_00 = .not32Low00 0x3FFFFFFF ∧
    decodeWord 0b111111111111111111111111111111_01 = .not32Low01 0x3FFFFFFF ∧
    decodeWord 0b111111111111111111111111111111_10 = .not32Low10 0x3FFFFFFF ∧
    decodeWord 0b111111111111111111111111100_11111 = .not32Long 0x7FFFFFC := by decide

/-- Four bytes in memory order are one instruction, fewer are rejected by name (R54, R57): `sub`'s. -/
theorem test_decode_bytes :
    decode [0xB3, 0x00, 0x31, 0x40, 0x37] = .ok (.sub 3 2 1, [0x37]) ∧
    decode [0x6F, 0xD0] = .error (.shortRead 2) := by decide

/-- The opcode table's numbering: bit 0 is the word's lowest; bits above `nbits` are 0. -/
theorem test_decode_table_word :
    decodeTableWord 32 0x403100B3 = some (.sub 3 2 1) ∧
    decodeTableWord 8 0x403100B3 = some (.op 0 0 0 0 1) := by decide

/-! ## One step of every class, run as the first step after reset -/

/-- E5. -/
theorem test_lui_E5 :
    gives 0x831F3037 (row true 0b0110111 3 0b1000001 30 17 0 0x831F3000) := by
  decide

/-- U7. -/
theorem test_lui_U7 :
    gives 0xA5A5A5B7 (row true 0b0110111 2 0b1010010 11 26 11 0xA5A5A000) := by
  decide

/-- U4: the pc is not added. -/
theorem test_auipc_U4 :
    gives 0x12345297 (row true 0b0010111 5 0b0001001 8 3 5 0x12345000) := by
  decide

/-- E6. -/
theorem test_jal_E6 :
    gives 0xF31CD06F (row true 0b1101111 5 0b1111001 25 17 0 0x001CDF30) := by
  decide

/-- J10. -/
theorem test_jal_J10 :
    gives 0xA5A5A5EF (row true 0b1101111 2 0b1010010 11 26 11 0x0015A25A) := by
  decide

/-- I2: not sign-extended. -/
theorem test_jalr_I2 :
    gives 0xFFF08067 (row true 0b1100111 0 0b1111111 1 31 0 0x00000FFF) := by
  decide

/-- I10. -/
theorem test_jalr_I10 :
    gives 0xA5A5A5E7 (row true 0b1100111 2 0b1010010 11 26 11 0x00000A5A) := by
  decide

/-- I3. -/
theorem test_load_I3 :
    gives 0x80012283 (row true 0b0000011 2 0b1000000 2 0 5 0x00000800) := by
  decide

/-- A2: the smallest word of 32-bit format. -/
theorem test_load_A2 :
    gives 0x00000003 (row true 0b0000011 0 0b0000000 0 0 0 0x00000000) := by
  decide

/-- E7. -/
theorem test_branch_E7 :
    gives 0x440007E3 (row true 0b1100011 0 0b0100010 0 0 15 0x00000C4E) := by
  decide

/-- B9. -/
theorem test_branch_B9 :
    gives 0xA5A5A5E3 (row true 0b1100011 2 0b1010010 11 26 11 0x00001A4A) := by
  decide

/-- S6. -/
theorem test_store_S6 :
    gives 0xFE512E23 (row true 0b0100011 2 0b1111111 2 5 28 0x00000FFC) := by
  decide

/-- S8. -/
theorem test_store_S8 :
    gives 0xA5A5A5A3 (row true 0b0100011 2 0b1010010 11 26 11 0x00000A4B) := by
  decide

/-- I8: opcode 0010011 is no trigger. -/
theorem test_opImm_I8 :
    gives 0xFFF00093 (row true 0b0010011 0 0b1111111 0 31 1 0x00000000) := by
  decide

/-- F7. -/
theorem test_op_F7 :
    gives 0xA5A5A5B3 (row true 0b0110011 2 0b1010010 11 26 11 0x00000000) := by
  decide

/-- E4. -/
theorem test_sub_E4 :
    gives 0x403100B3 (row true 0b0110011 0 0b0100000 2 3 1 0x00000000) := by
  decide

/-- A3: the largest word of 32-bit format. -/
theorem test_largest_A3 :
    gives 0xFFFFFFFB (row true 0b1111011 7 0b1111111 31 31 31 0x00000000) := by
  decide

/-- P4 at 0x0C. -/
theorem test_fence_P4 :
    gives 0x0FF0000F (row true 0b0001111 0 0b0000111 0 31 0 0x00000000) := by
  decide

/-- The unnamed opcodes on the mixed pattern of section 2.3: the fields, immediate 0. -/
theorem test_unnamed :
    ∀ op ∈ ([0b0000111, 0b0001011, 0b0001111, 0b0011011, 0b0100111, 0b0101011, 0b0101111, 0b0111011,
        0b1000011, 0b1000111] : List Opcode),
      gives (0xA5A5A580 + op.toNat) (row true op 2 0b1010010 11 26 11 0) := by decide

theorem test_unnamed_rest :
    ∀ op ∈ ([0b1001011, 0b1001111, 0b1010011, 0b1010111, 0b1011011, 0b1101011, 0b1110011, 0b1110111,
        0b1111011] : List Opcode),
      gives (0xA5A5A580 + op.toNat) (row true op 2 0b1010010 11 26 11 0) := by decide

/-- E8: N1 to N9, words that are not of 32-bit format. -/
theorem test_not32 :
    ∀ w ∈ [0x00000000, 0xFFFFFFFC, 0x00000001, 0xFFFFFFFD, 0xFFFFFFFE, 0x0000001F, 0xFFFFFFFF,
      0xFFFFFF9F, 0x80820001], gives w zeroRow := by decide

/-- Section 2.3: with instr[31:7] all ones, the immediates of the 32 values of instr[6:2]. -/
theorem test_immediates_all_ones :
    (List.range 32).map (fun k => (decodeBlock (BitVec.ofNat 32 (0xFFFFFF83 + 4 * k))).imm) =
      [0xFFF, 0, 0, 0, 0, 0xFFFFF000, 0, 0, 0xFFF, 0, 0, 0, 0, 0xFFFFF000, 0, 0,
       0, 0, 0, 0, 0, 0, 0, 0, 0x1FFE, 0xFFF, 0, 0x1FFFFE, 0, 0, 0, 0] := by decide

/-- Section 2.2: bit 7, 11, 12, 14, 15, 19, 20, 24, 25, 31 alone shows in its field. -/
theorem test_field_boundaries :
    (decodeFields 0x000000B3).rd = 1 ∧ (decodeFields 0x00000833).rd = 16 ∧
    (decodeFields 0x00001033).funct3 = 1 ∧ (decodeFields 0x00004033).funct3 = 4 ∧
    (decodeFields 0x00008033).rs1 = 1 ∧ (decodeFields 0x00080033).rs1 = 16 ∧
    (decodeFields 0x00100033).rs2 = 1 ∧ (decodeFields 0x01000033).rs2 = 16 ∧
    (decodeFields 0x02000033).funct7 = 1 ∧ (decodeFields 0x80000033).funct7 = 64 := by decide

/-- M1 to M7, M14: the immediate decoder on an opcode that is not the word's. -/
theorem test_immediate_alone :
    decodeImmediate 0x403100B3 0b0110111 = 0x40310000 ∧
    decodeImmediate 0x403100B3 0b1101111 = 0x00010C02 ∧
    decodeImmediate 0x403100B3 0b1100111 = 0x00000403 ∧
    decodeImmediate 0x403100B3 0b1100011 = 0x00000C00 ∧
    decodeImmediate 0x403100B3 0b0100011 = 0x00000401 ∧
    decodeImmediate 0x403100B3 0b0110011 = 0 ∧
    decodeImmediate 0x403100B3 0b0000000 = 0 ∧
    decodeImmediate 0xFFFFFFFF 0b0110110 = 0 := by decide

/-! ## Fetch (section 2.10) -/

/-- X1 to X5: little-endian, the pc's low bits ignored. -/
theorem test_fetch_words :
    fetchF 0 = .ok 0x403100B3 ∧ fetchF 1 = .ok 0x403100B3 ∧ fetchF 3 = .ok 0x403100B3 ∧
    fetchF 4 = .ok 0x831F3037 ∧ fetchF 7 = .ok 0x831F3037 := by decide

/-- X6 to X8: past the end, with the aligned address; no wrap at the top. -/
theorem test_fetch_past_end :
    fetchF 8 = .error (.outOfBounds 8) ∧ fetchF 0x0C = .error (.outOfBounds 0x0C) ∧
    fetchF 0xFFFFFFFF = .error (.outOfBounds 0xFFFFFFFC) := by decide

/-- X9, X10: nothing linked; an empty source. -/
theorem test_fetch_no_source :
    fetch none 0xFFFFFFFF = .error .noSource ∧
    fetch (some (Memory.ofBytes [])) 0 = .error (.outOfBounds 0) := by decide

/-- X11 and D7: a decode cycle does not advance the pc; the caller's write does, and the next cycle
decodes the next word. -/
theorem test_step_leaves_pc :
    (nextOr stateF (step stateF)).pc = 0 ∧
    shown (step (nextOr stateF (step stateF))) = shown (step stateF) ∧
    shown (step (nextOr stateF (step (calling (.writePc 4))))) =
      some (.decoded (row true 0b0110111 3 0b1000001 30 17 0 0x831F3000)) := by decide

/-- P4: past the end the caller has the error in hand, whatever it does then (R258). -/
theorem test_step_error :
    step (stateF.setPc 0x0A) = .fault (.outOfBounds 8) ∧
    step State.reset = .fault .noSource ∧
    shown (step { stateF.setPc 0x0A with onError := .goOn }) = some (.error (.outOfBounds 8)) :=
  ⟨rfl, rfl, by decide⟩

/-! ## Byte sequences -/

/-- Writing what an unlisted byte reads as removes the cell; a byte past the end makes the sequence
longer. -/
theorem test_memory_canonical :
    (Memory.ofBytes [0x00, 0x12]).cells = [(1, 0x12)] ∧
    ((Memory.ofBytes [0x00, 0x12]).write 1 0x00) = Memory.ofBytes [0x00, 0x00] ∧
    ((Memory.ofBytes [0x00, 0x12]).write 3 0x34) = Memory.ofBytes [0x00, 0x12, 0x00, 0x34] := by
  decide

/-- `withFetchWord` replaces the four bytes at the aligned pc and nothing else. -/
theorem test_with_fetch_word :
    ((stateF.setPc 6).withFetchWord 32 0x12345297).source = some (Memory.ofBytes
      [0xB3, 0x00, 0x31, 0x40, 0x97, 0x52, 0x34, 0x12, 0x6F, 0xD0]) := by decide

/-! ## Registers, reset, dump (section 2.11, E1, E2) -/

/-- What a call hands back in a state. -/
def asks (s : State) (c : Call) : Option Output := shown (perform c s)

/-- The state after a call. -/
def after (s : State) (c : Call) : State := nextOr s (perform c s)

/-- E1: a handle and the index are one storage. -/
theorem test_handle_aliases :
    asks (after stateF (.writeReg (.handle (linkHandle 7)) 0xDEADBEEF)) (.readReg (.index 7))
      = some (.value 0xDEADBEEF) ∧
    asks (after stateF (.writeReg (.index 7) 1)) (.readReg (.handle (linkHandle 7)))
      = some (.value 1) ∧
    asks (after stateF (.writeReg (.named .stackPointer) 0x80)) (.readReg (.index 2))
      = some (.value 0x80) := by decide

/-- V-R2, V-R3: truncation to 32 bits; register 0 discards. -/
theorem test_write_truncates_and_zero_discards :
    asks (after stateF (.writeReg (.index 5) 0x100000005)) (.readReg (.index 5))
      = some (.value 5) ∧
    asks (after stateF (.writeReg (.index 0) 0xFFFFFFFF)) (.readReg (.index 0))
      = some (.value 0) ∧
    asks (after stateF (.writeReg (.named .zero) 0xFFFFFFFF)) (.readReg (.handle (linkHandle 0)))
      = some (.value 0) := by decide

/-- V-R4, V-R5: `reset()` zeroes, keeps the link, and a handle survives it. -/
theorem test_reset :
    after (after (after stateF (.writeReg (.index 31) 0xFFFFFFFF)) (.writePc 0x80000001)) .reset
      = after stateF .reset ∧
    (after stateF .reset).source = stateF.source ∧
    readX (after (after stateF .reset) (.writeReg (.handle (linkHandle 4)) 7)) 4 = 7 := by decide

/-- V-R6: fetch at a misaligned pc; the pc stays. -/
theorem test_fetch_keeps_pc :
    asks (after stateF (.writePc 6)) (.fetch .register) = some (.word 0x831F3037) ∧
    (after (after stateF (.writePc 6)) (.fetch .register)).pc = 6 := by decide

/-- V-R8: line 1 shows x[1]; line 32 shows the pc. -/
theorem test_dump :
    (dumpLines (after stateF (.writeReg (.index 1) 0x1234ABCD)))[1]? = some
      ['1', '2', '3', '4', 'A', 'B', 'C', 'D'] ∧
    (dumpLines (after stateF (.writePc 0xF)))[32]? = some
      ['0', '0', '0', '0', '0', '0', '0', 'F'] ∧
    dumpLines State.reset = List.replicate 33 ['0', '0', '0', '0', '0', '0', '0', '0'] := by decide

/-- The data source changes nothing a decode cycle shows (R53). -/
theorem test_data_source_dead :
    shown (step (after stateF (.linkData [0xFF, 0xFF, 0xFF, 0xFF]))) = shown (step stateF) := by
  decide

/-! ## Witnesses: a concrete case for the hypotheses of each statement -/

/-- The hypothesis holds of the neighbours of the ill-formed term and of `sub`. -/
theorem witness_DecodeAfterEncode :
    (Instr.op 0b0100000 31 31 1 31).wf = true ∧ (Instr.op 0b0100001 31 31 0 31).wf = true ∧
    (Instr.sub 31 31 31).wf = true := by decide

/-- A well-formed instruction; lists of 0 and of 3 bytes. -/
theorem witness_BytesDecodeLittleEndian :
    (Instr.sub 3 2 1).wf = true ∧ ([] : List Byte).length < 4 ∧ ([1, 2, 3] : List Byte).length < 4 := by decide

/-- A `sub` word, with SUB's row, OP's row and a third one. -/
theorem witness_EveryWordFitsExactlyItsRow :
    rowOf (decodeWord 0x403100B3) ∈ opcodeTable ∧ opRow ∈ opcodeTable ∧
    decodeWord 0x403100B3 = .sub 3 2 1 ∧ (rowOf (.lui 0 0)).fits 0x403100B3 = false := by decide

/-- The ends of each format's range. -/
theorem witness_ImmediateEncodersRoundTrip :
    (0xFFFFF000#32).toNat % 0x1000 = 0 ∧ ((0x1FFFFE#32).toNat % 2 = 0 ∧ (0x1FFFFE#32).toNat ≤ 0x1FFFFE) ∧
    (0xFFF#32).toNat ≤ 0xFFF ∧ ((0x1FFE#32).toNat % 2 = 0 ∧ (0x1FFE#32).toNat ≤ 0x1FFE) ∧
    (0#32).toNat % 0x1000 = 0 := by decide

/-- N1 and N7. -/
theorem witness_FailedClassificationGivesZeroes :
    (decodeFields 0x00000000).success = false ∧ (decodeFields 0xFFFFFFFF).success = false := by decide

/-- Two words with the same low five bits. -/
theorem witness_SuccessIsTheTwoPartTest :
    (0xFFFFFF9F#32).extractLsb' 0 5 = (0x0000001F#32).extractLsb' 0 5 := by decide

/-- A2 and A3, as for the fields. -/
theorem witness_SuccessfulOpcodesAreThe28 :
    (decodeFields 0x00000003).success = true ∧ (decodeFields 0xFFFFFFFB).success = true := by decide

/-- A2 and A3, the smallest and the largest word of 32-bit format. -/
theorem witness_SuccessfulFieldsAreSlices :
    (decodeFields 0x00000003).success = true ∧ (decodeFields 0xFFFFFFFB).success = true := by decide

/-- A word of 32-bit format; two others with the same low five bits. -/
theorem witness_FieldsReassembleTheWord :
    (decodeFields 0xA5A5A5B3).success = true ∧
    (0x0000001F#32).extractLsb' 0 5 = (0xFFFFFFFF#32).extractLsb' 0 5 ∧
    (decodeFields 0xFFFFFFFF).success = false := by decide

/-- A trigger of each list, and M14's opcode, one bit away from LUI. -/
theorem witness_EachOpcodeSelectsItsReconstruction :
    0b0010111#7 ∈ [0b0110111#7, 0b0010111#7] ∧ 0b0000011#7 ∈ [0b1100111#7, 0b0000011#7] ∧
    0b0110110#7 ∉ [0b0110111#7, 0b0010111#7, 0b1101111#7, 0b1100111#7, 0b0000011#7, 0b1100011#7,
      0b0100011#7] := by decide

/-- The opcodes next to LUI, the ALU-immediate one and 0. -/
theorem witness_NonTriggersGiveZeroImmediate :
    ∀ op ∈ ([0b0110110, 0b0010011, 0b0000000] : List Opcode),
      op ∉ [0b0110111#7, 0b0010111#7, 0b1101111#7, 0b1100111#7, 0b0000011#7, 0b1100011#7, 0b0100011#7] := by decide

/-- The all-ones word reaches the top of each range. -/
theorem witness_ImmediateRanges :
    (decodeImmediate 0xFFFFFFFF 0b0010111).toNat = 0xFFFFF * 0x1000 ∧
    (decodeImmediate 0xFFFFFFFF 0b1101111).toNat = 0x1FFFFE ∧
    (decodeImmediate 0xFFFFFFFF 0b1100011).toNat = 0x1FFE ∧
    (decodeImmediate 0xFFFFFFFF 0b0100011).toNat = 0xFFF ∧
    decodeImmediate 0xFFFFFFFF 0b1111111 = 0 := by decide

/-- A trigger word, and a word whose classification fails. -/
theorem witness_ZeroedOpcodeHidesNoImmediate :
    (0x831F3037#32).extractLsb' 0 7 ∈ [0b0110111#7, 0b0010111#7, 0b1101111#7, 0b1100111#7,
      0b0000011#7, 0b1100011#7, 0b0100011#7] ∧ (decodeBlock 0xFFFFFFFF).fields.success = false := by decide

/-- One word of each format that carries an immediate. -/
theorem witness_FieldsShowImmediateBits :
    (0xA5A5A5B7#32).extractLsb' 0 7 = 0b0110111#7 ∧ (0x12345297#32).extractLsb' 0 7 = 0b0010111#7 ∧
    (0xA5A5A5EF#32).extractLsb' 0 7 = 0b1101111#7 ∧ (0xA5A5A5E7#32).extractLsb' 0 7 = 0b1100111#7 ∧
    (0x80012283#32).extractLsb' 0 7 = 0b0000011#7 ∧ (0xA5A5A5E3#32).extractLsb' 0 7 = 0b1100011#7 ∧
    (0xA5A5A5A3#32).extractLsb' 0 7 = 0b0100011#7 := by decide

/-- A pair of the list, completing. -/
theorem witness_UnnamedOpcodeOutputs :
    runWord 0x00000073 = some (.decoded (row true 0b1110011 0 0 0 0 0 0)) := by decide

/-- Each of the four completes. -/
theorem witness_Not32BitOutputs :
    runWord 0 = some (.decoded zeroRow) ∧ runWord 1 = some (.decoded zeroRow) ∧
    runWord 2 = some (.decoded zeroRow) ∧ runWord 0x1F = some (.decoded zeroRow) := by decide

/-- A decode cycle at a misaligned pc on F; the second word is the last four bytes that fit. -/
theorem witness_StepRunsTheDecodedInstruction :
    nextCall (stateF.setPc 7) = .decodeCycle .register ∧
    (stateF.setPc 7).source = some (Memory.ofBytes imageF) ∧
    4 = (fetchAddr (PcArg.register.eval (stateF.setPc 7))).toNat ∧
    4 + 4 ≤ (Memory.ofBytes imageF).size ∧ (Instr.lui 0 0x831F3).wf = true ∧
    decode [(Memory.ofBytes imageF).byte 4, (Memory.ofBytes imageF).byte 5,
      (Memory.ofBytes imageF).byte 6, (Memory.ofBytes imageF).byte 7]
      = .ok (.lui 0 0x831F3, []) := by decide

/-- A state with an empty list, and one with two operations noted. -/
theorem witness_NextOperationIsTheFirstNoted :
    State.reset.calls = [] ∧
    (stateF.setCalls [.reset, .dump]).calls = .reset :: [.dump] := by decide

/-- Right after reset, at the top of the address space, and with another operation noted. -/
theorem witness_PlacedWordRunsNext :
    linkWf State.reset.source = true ∧ linkWf stateF.source = true ∧
    shown (step ((State.reset.setPc 0xFFFFFFFF).withFetchWord 32 0x12345297)) =
      some (.decoded (row true 0b0010111 5 0b0001001 8 3 5 0x12345000)) ∧
    shown (step ((calling .dump).withFetchWord 32 0x12345297)) =
      some (.decoded (row true 0b0010111 5 0b0001001 8 3 5 0x12345000)) := by decide

/-- A fetch that answers a word and one that raises, by value and by register. -/
theorem witness_DecodeCycleIsFetchThenBlock :
    nextCall (calling (.decodeCycle (.value 4))) = .decodeCycle (.value 4) ∧
    fetch (calling (.decodeCycle (.value 4))).source ((PcArg.value 4).eval stateF)
      = .ok 0x831F3037 ∧
    nextCall State.reset = .decodeCycle .register ∧
    fetch State.reset.source (PcArg.register.eval State.reset) = .error .noSource := by decide

/-- A step that goes on, and an error the caller goes on from. -/
theorem witness_RepeatedDecodeCycleIsIdempotent :
    stateF.calls = [] ∧ (∃ t, step stateF = .next t) ∧
    ∃ t, step { State.reset with onError := .goOn } = .next t :=
  ⟨rfl, ⟨_, rfl⟩, ⟨_, rfl⟩⟩

/-- Two states with other registers and pcs that differ in their low bits; and an error. -/
theorem witness_DecodeCycleSeesOnlySourceAndPc :
    nextCall (stateF.setPc 4) = .decodeCycle .register ∧
    nextCall (writeX (calling (.decodeCycle (.value 7))) 3 9) = .decodeCycle (.value 7) ∧
    (stateF.setPc 4).source = (writeX (calling (.decodeCycle (.value 7))) 3 9).source ∧
    fetchAddr (PcArg.register.eval (stateF.setPc 4))
      = fetchAddr ((PcArg.value 7).eval (writeX (calling (.decodeCycle (.value 7))) 3 9)) ∧
    (stateF.setPc 4).onError = (writeX (calling (.decodeCycle (.value 7))) 3 9).onError ∧
    (∃ t, step (stateF.setPc 4) = .next t) ∧
    step (stateF.setPc 8) = .fault (.outOfBounds 8) ∧
    fetchAddr (PcArg.register.eval (stateF.setPc 8))
      = fetchAddr (PcArg.register.eval (stateF.setPc 0xB)) ∧
    step (stateF.setPc 0xB) = .fault (.outOfBounds 8) :=
  ⟨by decide, by decide, by decide, by decide, by decide, ⟨_, rfl⟩, rfl, by decide, rfl⟩

/-- No source; a source one byte short of the word; one that holds it exactly. -/
theorem witness_FetchReadsAlignedLittleEndian :
    (Memory.ofBytes [0, 0, 0, 0, 1, 2, 3]).size < (5#32 &&& 0xFFFFFFFC#32).toNat + 4 ∧
    (5#32 &&& 0xFFFFFFFC#32).toNat + 4 ≤ (Memory.ofBytes [0, 0, 0, 0, 1, 2, 3, 4]).size ∧
    fetch (some (Memory.ofBytes [0, 0, 0, 0, 1, 2, 3, 4])) 5 = .ok 0x04030201 := by decide

/-- The four addresses of one word. -/
theorem witness_FetchIgnoresLowPcBits :
    (4#32).extractLsb' 2 30 = (7#32).extractLsb' 2 30 ∧
    (0xFFFFFFFC#32).extractLsb' 2 30 = (0xFFFFFFFF#32).extractLsb' 2 30 ∧
    fetchF 4 = .ok 0x831F3037 := by decide

/-- V-R6: a fetch call at a misaligned pc, with a word there. -/
theorem witness_FetchCallHandsBackTheWord :
    nextCall ((calling (.fetch .register)).setPc 6) = .fetch .register ∧
    fetch ((calling (.fetch .register)).setPc 6).source
      (PcArg.register.eval ((calling (.fetch .register)).setPc 6)) = .ok 0x831F3037 := by decide

/-- The last word of an image, and the first address past it. -/
theorem witness_LinkedImageIsFetched :
    (fetchAddr 4).toNat + 4 ≤ [0, 0, 0, 0, 1, 2, 3, (4 : Byte)].length ∧
    [0, 0, 0, 0, 1, 2, 3, (4 : Byte)].length < (fetchAddr 8).toNat + 4 := by decide

/-- Both errors, by a fetch and by a decode cycle, and both policies of the caller. -/
theorem witness_FetchErrorChangesNothing :
    nextCall (State.reset.setCalls [.fetch .register]) = .fetch .register ∧
    fetch (State.reset.setCalls [.fetch .register]).source
      (PcArg.register.eval (State.reset.setCalls [.fetch .register])) = .error .noSource ∧
    nextCall (stateF.setPc 8) = .decodeCycle .register ∧
    fetch (stateF.setPc 8).source (PcArg.register.eval (stateF.setPc 8))
      = .error (.outOfBounds 8) ∧
    (stateF.setPc 8).onError = .stop ∧
    ({ stateF.setPc 8 with onError := .goOn } : State).onError = .goOn := by decide

/-- A step that faults, a caller that goes on, and a fetchable pc. -/
theorem witness_OnlyFetchErrorsStop :
    step State.reset = .fault .noSource ∧
    ({ State.reset with onError := .goOn } : State).onError = .goOn ∧
    nextCall stateF = .decodeCycle .register ∧ stateF.Fetchable (PcArg.register.eval stateF) :=
  ⟨rfl, rfl, rfl, ⟨_, rfl, by decide⟩⟩

/-- The three access paths to register 0. -/
theorem witness_RegisterZeroReadsZero :
    (RegRef.index 0).slot = 0 ∧ (RegRef.handle (linkHandle 0)).slot = 0 ∧
    (RegRef.named .zero).slot = 0 := by decide

/-- The three access paths to other registers, the last one among them. -/
theorem witness_RegisterWriteTruncates :
    (RegRef.index 31).slot ≠ 0 ∧ (RegRef.handle (linkHandle 1)).slot ≠ 0 ∧
    (RegRef.named .threadPointer).slot ≠ 0 := by decide

/-- The first and the last name of the list. -/
theorem witness_NamesAreAliasesOfIndices :
    RegName.zero.index = 0 ∧ RegName.threadPointer.index = 4 := by decide

/-- Steps that change the pc: the caller's write, and `reset()`. -/
theorem witness_OnlyResetAndCallerWritePc :
    (∃ t, step (calling (.writePc 0x100000006)) = .next t ∧ t.pc = 6) ∧
    (∃ t, step ((calling .reset).setPc 6) = .next t ∧ t.pc = 0) :=
  ⟨⟨_, rfl, rfl⟩, ⟨_, rfl, rfl⟩⟩

/-- Steps that change a register: the caller's write, and `reset()`. -/
theorem witness_OnlyResetAndCallerWriteRegisters :
    (∃ t, step (calling (.writeReg (.index 3) 9)) = .next t ∧ readX t 3 = 9) ∧
    (∃ t, step (writeX (calling .reset) 3 9) = .next t ∧ readX t 3 = 0 ∧
      readX (writeX (calling .reset) 3 9) 3 = 9) :=
  ⟨⟨_, rfl, by decide⟩, ⟨_, rfl, by decide, by decide⟩⟩

/-- Steps that change a linked byte sequence. -/
theorem witness_OnlyLinkingChangesSources :
    (∃ t, step (calling (.linkSource [1])) = .next t ∧ t.source ≠ stateF.source) ∧
    (∃ t, step (calling (.linkData [1])) = .next t ∧ t.dataSource ≠ stateF.dataSource) :=
  ⟨⟨_, rfl, by decide⟩, ⟨_, rfl, by decide⟩⟩

/-- A step that goes on and one that faults, neither of which links a data source. -/
theorem witness_DataSourceIsDead :
    (∀ image, nextCall stateF ≠ .linkData image) ∧ (∃ t, step stateF = .next t) ∧
    (∀ image, nextCall State.reset ≠ .linkData image) ∧ step State.reset = .fault .noSource :=
  ⟨fun _ h => (by cases h), ⟨_, rfl⟩, fun _ h => (by cases h), rfl⟩

/-- A state with a source, a data source and registers that meets the invariant and steps. -/
theorem witness_StepKeepsTheInvariant :
    (writeX (stateF.setDataSource (some (Memory.ofBytes [0, 7]))) 0 5).Inv ∧
    ∃ t, step (writeX (stateF.setDataSource (some (Memory.ofBytes [0, 7]))) 0 5) = .next t :=
  ⟨⟨by decide, by decide, by decide⟩, ⟨_, rfl⟩⟩

end Sys2Proof.Tests
end

section
/-! The state family (spec/10_state.md): what the caller's operations hand back, what one step can do to
each field of the state, and the statements about registers, pc, sources and the dump. -/

namespace Sys2Proof.Machine

/-! ## What each operation ends in, for the calls that cannot raise -/

section
variable (s : State)

@[simp] theorem perform_reset : perform .reset s = .next ((resetRegisters s).setOutput .done) := rfl
@[simp] theorem perform_decodeFields (w : Word) :
    perform (.decodeFields w) s = .next (s.setOutput (.fields (decodeFields w))) := rfl
@[simp] theorem perform_decodeImmediate (w : Word) (op : Opcode) :
    perform (.decodeImmediate w op) s = .next (s.setOutput (.immediate (decodeImmediate w op))) := rfl
@[simp] theorem perform_dump : perform .dump s = .next (s.setOutput (.text (dumpText s))) := rfl
@[simp] theorem perform_link (i : RegIndex) :
    perform (.link i) s = .next (s.setOutput (.handle (linkHandle i))) := rfl
@[simp] theorem perform_readReg (r : RegRef) :
    perform (.readReg r) s = .next (s.setOutput (.value (readX s r.slot))) := rfl
@[simp] theorem perform_writeReg (r : RegRef) (v : Nat) :
    perform (.writeReg r v) s = .next ((writeX s r.slot (truncate v)).setOutput .done) := rfl
@[simp] theorem perform_readPc : perform .readPc s = .next (s.setOutput (.value s.pc)) := rfl
@[simp] theorem perform_writePc (v : Nat) :
    perform (.writePc v) s = .next ((s.setPc (truncate v)).setOutput .done) := rfl
@[simp] theorem perform_decodeCycle (pc : PcArg) :
    perform (.decodeCycle pc) s = decodeCycle (pc.eval s) s := rfl

/-! ## Registers and values -/

@[simp] theorem truncate_toNat (v : Nat) : (truncate v).toNat = v % 2 ^ 32 := BitVec.toNat_ofNat v 32

/-- A register reads as the file says: states with the same file read alike. -/
theorem readX_congr {s t : State} (h : t.regs = s.regs) (i : RegIndex) : readX t i = readX s i := by
  simp only [readX, h]

@[simp] theorem readX_setOutput (o : Output) (i : RegIndex) :
    readX (s.setOutput o) i = readX s i := readX_congr rfl i
@[simp] theorem readX_setPc (w : Word) (i : RegIndex) : readX (s.setPc w) i = readX s i :=
  readX_congr rfl i
@[simp] theorem readX_setSource (m : Option Memory) (i : RegIndex) :
    readX (s.setSource m) i = readX s i := readX_congr rfl i
@[simp] theorem readX_setDataSource (m : Option Memory) (i : RegIndex) :
    readX (s.setDataSource m) i = readX s i := readX_congr rfl i
@[simp] theorem readX_dropCall (i : RegIndex) : readX (dropCall s) i = readX s i := readX_congr rfl i

variable (i : RegIndex) (v : Word)

theorem readX_writeX_same : readX (writeX s i v) i = if i = 0 then 0 else v := by
  by_cases hi : i = 0#5 <;> simp [readX_writeX, hi]

theorem readX_writeX_of_ne {j : RegIndex} (h : j ≠ i) : readX (writeX s i v) j = readX s j := by
  simp [readX_writeX, h]

@[simp] theorem writeX_pc : (writeX s i v).pc = s.pc := by simp only [writeX_frame]
@[simp] theorem writeX_source : (writeX s i v).source = s.source := by simp only [writeX_frame]
@[simp] theorem writeX_dataSource : (writeX s i v).dataSource = s.dataSource := by
  simp only [writeX_frame]
@[simp] theorem writeX_calls : (writeX s i v).calls = s.calls := by simp only [writeX_frame]
@[simp] theorem writeX_onError : (writeX s i v).onError = s.onError := by simp only [writeX_frame]

@[simp] theorem resetRegisters_pc : (resetRegisters s).pc = 0 := rfl
@[simp] theorem resetRegisters_source : (resetRegisters s).source = s.source := rfl
@[simp] theorem resetRegisters_dataSource : (resetRegisters s).dataSource = s.dataSource := rfl
@[simp] theorem resetRegisters_zeroCell : (resetRegisters s).regs[0] = 0#32 := by
  simp [resetRegisters]

end

/-! ## The caller's list -/

theorem nextCall_of_nil {s : State} (h : s.calls = []) : nextCall s = .decodeCycle .register := by
  simp only [nextCall, h]

theorem nextCall_of_cons {s : State} {c : Call} {rest : List Call} (h : s.calls = c :: rest) :
    nextCall s = c := by
  simp only [nextCall, h]

theorem dropCall_of_nil {s : State} (h : s.calls = []) : dropCall s = s := by
  obtain ⟨regs, pc, source, dataSource, calls, onError, output⟩ := s
  subst h
  rfl

theorem dropCall_of_cons {s : State} {c : Call} {rest : List Call} (h : s.calls = c :: rest) :
    dropCall s = s.setCalls rest := by
  simp only [dropCall, h, List.tail_cons]

theorem step_of_nextCall {s : State} {c : Call} (h : nextCall s = c) :
    step s = perform c (dropCall s) := by
  rw [← h]
  rfl

@[simp] theorem eval_dropCall (pc : PcArg) (s : State) : pc.eval (dropCall s) = pc.eval s := by
  cases pc <;> rfl

/-- Everything a step that goes on can have done: written the output alone, or made the one change its
call names. -/
theorem step_next_cases {s t : State} (h : step s = .next t) :
    (∃ o, t = (dropCall s).setOutput o) ∨
    (nextCall s = .reset ∧ t = (resetRegisters (dropCall s)).setOutput .done) ∨
    (∃ image, nextCall s = .linkSource image ∧
      t = ((dropCall s).setSource (some (Memory.ofBytes image))).setOutput .done) ∨
    (∃ image, nextCall s = .linkData image ∧
      t = ((dropCall s).setDataSource (some (Memory.ofBytes image))).setOutput .done) ∨
    (∃ r v, nextCall s = .writeReg r v ∧
      t = (writeX (dropCall s) r.slot (truncate v)).setOutput .done) ∨
    (∃ v, nextCall s = .writePc v ∧ t = ((dropCall s).setPc (truncate v)).setOutput .done) := by
  unfold step at h
  simpa only [h, reduceCtorEq, Host.Outcome.next.injEq, and_false, exists_false, false_or]
    using perform_cases (nextCall s) (dropCall s)

/-! ## The invariant -/

namespace State.Inv

/-- The invariant speaks of the file and the two links only. -/
theorem congr {s t : State} (h : s.Inv) (hregs : t.regs = s.regs) (hsource : t.source = s.source)
    (hdata : t.dataSource = s.dataSource) : t.Inv :=
  ⟨by simpa only [hregs] using h.zeroCell, hsource ▸ h.source, hdata ▸ h.data⟩

variable {s : State} (h : s.Inv)
include h

theorem setOutput (o : Output) : (s.setOutput o).Inv := h.congr rfl rfl rfl

theorem dropCall : (dropCall s).Inv := h.congr rfl rfl rfl

theorem setPc (w : Word) : (s.setPc w).Inv := h.congr rfl rfl rfl

theorem resetRegisters : (resetRegisters s).Inv := ⟨resetRegisters_zeroCell s, h.source, h.data⟩

theorem writeX (i : RegIndex) (v : Word) : (writeX s i v).Inv where
  zeroCell := (writeX_zeroCell s i v).trans h.zeroCell
  source := by simpa using h.source
  data := by simpa using h.data

theorem setSource (image : List Byte) : (s.setSource (some (Memory.ofBytes image))).Inv :=
  ⟨h.zeroCell, Memory.ofBytes_wf image, h.data⟩

theorem setDataSource (image : List Byte) : (s.setDataSource (some (Memory.ofBytes image))).Inv :=
  ⟨h.zeroCell, h.source, Memory.ofBytes_wf image⟩

end State.Inv

/-- Settles O57: each change a step can make keeps the invariant. -/
theorem stepKeepsTheInvariant : Obligations.StepKeepsTheInvariant := by
  intro s t hinv hstep
  have hdrop := hinv.dropCall
  obtain ⟨o, rfl⟩ | ⟨-, rfl⟩ | ⟨image, -, rfl⟩ | ⟨image, -, rfl⟩ | ⟨r, v, -, rfl⟩ | ⟨v, -, rfl⟩ :=
    step_next_cases hstep
  · exact hdrop.setOutput o
  · exact hdrop.resetRegisters.setOutput _
  · exact (hdrop.setSource image).setOutput _
  · exact (hdrop.setDataSource image).setOutput _
  · exact (hdrop.writeX r.slot _).setOutput _
  · exact (hdrop.setPc _).setOutput _

/-! ## What a decode cycle depends on -/

theorem fetch_congr {pc pc' : Word} (h : fetchAddr pc = fetchAddr pc') (source : Option Memory) :
    fetch source pc = fetch source pc' := by
  simp only [fetch, h]

theorem raise_of_stop {s : State} (h : s.onError = .stop) (e : Fault) : raise s e = .fault e := by
  simp only [raise, h]

theorem raise_of_goOn {s : State} (h : s.onError = .goOn) (e : Fault) :
    raise s e = .next (s.setOutput (.error e)) := by
  simp only [raise, h, finish]

/-- States with the same source, fetch address and error policy end a decode cycle alike: both put the
same thing out, or both fault with the same error. -/
theorem decodeCycle_agree {s s' : State} {pc pc' : Word} (hsource : s.source = s'.source)
    (haddr : fetchAddr pc = fetchAddr pc') (hpolicy : s.onError = s'.onError) :
    (∃ o, decodeCycle pc s = .next (s.setOutput o) ∧
      decodeCycle pc' s' = .next (s'.setOutput o)) ∨
    (∃ e, decodeCycle pc s = .fault e ∧ decodeCycle pc' s' = .fault e) := by
  have hfetch : fetch s'.source pc' = fetch s.source pc := by
    rw [← hsource, fetch_congr haddr]
  unfold decodeCycle
  rw [hfetch]
  cases fetch s.source pc with
  | ok w =>
    obtain ⟨d, hd⟩ := exec_drives (decodeWord w)
    exact .inl ⟨.decoded d, hd s, hd s'⟩
  | error e =>
    cases hs : s.onError with
    | stop => exact .inr ⟨e, raise_of_stop hs e, raise_of_stop (hpolicy ▸ hs) e⟩
    | goOn => exact .inl ⟨.error e, raise_of_goOn hs e, raise_of_goOn (hpolicy ▸ hs) e⟩

/-- Settles O38, by the agreement of two decode cycles. -/
theorem decodeCycleSeesOnlySourceAndPc : Obligations.DecodeCycleSeesOnlySourceAndPc := by
  intro s s' pc pc' hcall hcall' hsource haddr hpolicy
  rw [step_of_nextCall hcall, step_of_nextCall hcall', perform_decodeCycle, perform_decodeCycle,
    eval_dropCall, eval_dropCall]
  obtain ⟨o, h, h'⟩ | ⟨e, h, h'⟩ :=
    decodeCycle_agree (s := dropCall s) (s' := dropCall s') hsource haddr hpolicy
  · rw [h, h']
    refine ⟨fun t ht => ⟨_, rfl, ?_⟩, nofun⟩
    obtain rfl := Host.Outcome.next.inj ht
    rfl
  · rw [h, h']
    exact ⟨nofun, fun _ he => he⟩

/-! ## The register file -/

/-- What is written along one access path is read along every path to the same slot (R23, R25). -/
theorem readReg_after_writeReg (s : State) (v : Nat) {r q : RegRef} (h : q.slot = r.slot) :
    ∃ t, perform (.writeReg r v) s = .next t ∧ perform (.readReg q) t
      = .next (t.setOutput (.value (if r.slot = 0 then 0 else BitVec.ofNat 32 v))) := by
  refine ⟨_, perform_writeReg s r v, ?_⟩
  rw [perform_readReg, readX_setOutput, h, readX_writeX_same]
  rfl

/-- Settles O46, by the laws of one register read after a write of the same and of another one. -/
theorem registerWriteTruncates : Obligations.RegisterWriteTruncates := by
  intro s r v hr
  have hread : readX (writeX s r.slot (truncate v)) r.slot = truncate v := by
    rw [readX_writeX_same, if_neg hr]
  refine ⟨_, perform_writeReg s r v, ?_, ?_, fun j hj => ?_, ?_⟩
  · rw [readX_setOutput, hread, truncate_toNat]
  · rw [perform_readReg, readX_setOutput, hread]
    rfl
  · rw [readX_setOutput, readX_writeX_of_ne _ _ _ hj]
  · simp

/-- Settles O47: the handle and the index reach the same slot. -/
theorem handleSharesStorage : Obligations.HandleSharesStorage := by
  intro s i v
  exact ⟨linkHandle i, perform_link s i,
    readReg_after_writeReg s v (r := .handle (linkHandle i)) (q := .index i) rfl,
    readReg_after_writeReg s v (r := .index i) (q := .handle (linkHandle i)) rfl⟩

/-- Settles O45: reads and writes go through the slot, and slot 0 is hard-wired. -/
theorem registerZeroReadsZero : Obligations.RegisterZeroReadsZero := by
  intro s r hr
  refine ⟨?_, fun v => ?_⟩
  · simp [perform_readReg, hr, readX_zero]
  · simp [perform_writeReg, hr, writeX_zero]

/-- An access path matters only through the slot it reaches. -/
theorem perform_reg_congr {r q : RegRef} (h : r.slot = q.slot) (s : State) (v : Nat) :
    perform (.readReg r) s = perform (.readReg q) s ∧
    perform (.writeReg r v) s = perform (.writeReg q v) s := by
  simp only [perform_readReg, perform_writeReg, h, and_self]

/-- Settles O48: each name's slot is its index. -/
theorem namesAreAliasesOfIndices : Obligations.NamesAreAliasesOfIndices := by
  intro s v p hp
  have hslot : ∀ p ∈ [(RegName.zero, 0#5), (RegName.returnAddress, 1#5), (RegName.stackPointer, 2#5),
      (RegName.globalPointer, 3#5), (RegName.threadPointer, 4#5)],
      (RegRef.named p.1).slot = (RegRef.index p.2).slot := by decide
  exact perform_reg_congr (hslot p hp) s v

/-! ## The dump -/

/-- A digit written reads back as its value. -/
theorem hexDigitValue_hexDigit : ∀ d : BitVec 4, hexDigitValue (hexDigit d) = some d.toNat := by
  decide

theorem readHexFrom_nil (acc : Nat) : readHexFrom acc [] = some acc := rfl

theorem readHexFrom_hexDigit (acc : Nat) (d : BitVec 4) (rest : List Char) :
    readHexFrom acc (hexDigit d :: rest) = readHexFrom (16 * acc + d.toNat) rest := by
  simp only [readHexFrom, hexDigitValue_hexDigit]

@[simp] theorem hexLine_length (v : Word) : (hexLine v).length = 8 := rfl

/-- The eight digits of a line are the value in base 16. -/
theorem readHexFrom_hexLine (v : Word) : readHexFrom 0 (hexLine v) = some v.toNat := by
  simp only [hexLine, readHexFrom_hexDigit, readHexFrom_nil, toNat_slice]
  refine congrArg some ?_
  omega

theorem allX_length (s : State) : (allX s).length = 32 := by simp [allX]

theorem dumpLines_register (s : State) {k : Nat} (hk : k < 32) :
    (dumpLines s)[k]? = some (hexLine (readX s (BitVec.ofNat 5 k))) := by
  simp [dumpLines, allX, List.getElem?_append, hk]

theorem dumpLines_pc (s : State) : (dumpLines s)[32]? = some (hexLine s.pc) := by
  simp [dumpLines, allX_length]

theorem dumpLines_line_length {s : State} {line : List Char} (h : line ∈ dumpLines s) :
    line.length = 8 := by
  simp only [dumpLines, List.mem_append, List.mem_map, List.mem_singleton] at h
  obtain ⟨v, -, rfl⟩ | rfl := h <;> exact hexLine_length _

/-- Settles O51: the lines are found by position and each reads back as its value. -/
theorem dumpShowsRegistersThenPc : Obligations.DumpShowsRegistersThenPc := by
  intro s
  exact ⟨perform_dump s, rfl, by simp [dumpLines, allX_length], fun _ => dumpLines_line_length,
    fun k hk => ⟨_, dumpLines_register s hk, readHexFrom_hexLine _⟩,
    ⟨_, dumpLines_pc s, readHexFrom_hexLine _⟩⟩

/-! ## What a step changes, field by field -/

/-- Settles O53: of the changes a step can make, only `reset()` and the caller's write touch the pc. -/
theorem onlyResetAndCallerWritePc : Obligations.OnlyResetAndCallerWritePc := by
  intro s t hstep
  refine ⟨fun hne => ?_, fun hcall => ?_, fun v hcall => ?_⟩
  · obtain ⟨o, rfl⟩ | ⟨hcall, -⟩ | ⟨image, -, rfl⟩ | ⟨image, -, rfl⟩ | ⟨r, v, -, rfl⟩ |
      ⟨v, hcall, -⟩ := step_next_cases hstep
    · exact absurd rfl hne
    · exact .inl hcall
    · exact absurd rfl hne
    · exact absurd rfl hne
    · exact absurd (writeX_pc _ _ _) hne
    · exact .inr ⟨v, hcall⟩
  · rw [step_of_nextCall hcall, perform_reset] at hstep
    obtain rfl := Host.Outcome.next.inj hstep
    rfl
  · rw [step_of_nextCall hcall, perform_writePc] at hstep
    obtain rfl := Host.Outcome.next.inj hstep
    exact truncate_toNat v

/-- Settles O54: a register that reads differently was zeroed by `reset()` or is the one written. -/
theorem onlyResetAndCallerWriteRegisters : Obligations.OnlyResetAndCallerWriteRegisters := by
  intro s t i hstep hne
  refine ⟨?_, ?_⟩
  · rintro rfl
    exact hne ((readX_zero t).trans (readX_zero s).symm)
  obtain ⟨o, rfl⟩ | ⟨hcall, rfl⟩ | ⟨image, -, rfl⟩ | ⟨image, -, rfl⟩ | ⟨r, v, hcall, rfl⟩ |
    ⟨v, -, rfl⟩ := step_next_cases hstep
  · simp at hne
  · exact .inl ⟨hcall, by simp⟩
  · simp at hne
  · simp at hne
  · have hwrite := readX_writeX (dropCall s) r.slot i (truncate v)
    rw [readX_setOutput, hwrite] at hne ⊢
    split at hne
    · next h => exact .inr ⟨r, v, hcall, h.2.symm, if_pos h⟩
    · exact absurd (readX_dropCall s i) hne
  · simp at hne

/-- A linked image has the image's length and bytes (R51). -/
theorem ofBytes_holds_image (image : List Byte) :
    ∃ m, some (Memory.ofBytes image) = some m ∧ m.size = image.length ∧
      ∀ a, (h : a < image.length) → m.byte a = image[a] :=
  ⟨_, rfl, rfl, fun a h => by rw [Memory.ofBytes_byte, List.getD_eq_getElem _ _ h]⟩

/-- Settles O55: of the changes a step can make, only linking touches a link, and it puts the whole image
there. -/
theorem onlyLinkingChangesSources : Obligations.OnlyLinkingChangesSources := by
  intro s t hstep
  obtain ⟨o, rfl⟩ | ⟨-, rfl⟩ | ⟨image, hcall, rfl⟩ | ⟨image, hcall, rfl⟩ | ⟨r, v, -, rfl⟩ |
    ⟨v, -, rfl⟩ := step_next_cases hstep
  · simp
  · simp
  · exact ⟨fun _ => ⟨image, hcall, ofBytes_holds_image image⟩, fun hne => absurd rfl hne⟩
  · exact ⟨fun hne => absurd rfl hne, fun _ => ⟨image, hcall, ofBytes_holds_image image⟩⟩
  · simp
  · simp

/-! ## The next operation, and the operations that only hand back -/

/-- Settles O34, by the two shapes of the caller's list. -/
theorem nextOperationIsTheFirstNoted : Obligations.NextOperationIsTheFirstNoted := fun _ =>
  ⟨fun h => ⟨nextCall_of_nil h, dropCall_of_nil h⟩,
    fun _ _ h => ⟨nextCall_of_cons h, dropCall_of_cons h⟩, step_of_nextCall rfl⟩

/-- Settles O52, one equation of `perform` per operation. -/
theorem readingOperationsHandBack : Obligations.ReadingOperationsHandBack := fun s w op i v =>
  ⟨perform_decodeFields s w, perform_decodeImmediate s w op, perform_link s i, perform_readPc s,
    perform_writePc s v⟩

end Sys2Proof.Machine
end

section
/-! The memory family (spec/20_memory.md), its words: the decoder undoes the encoder, and four bytes in
memory order are one word (R54, R57). -/

namespace Sys2Proof

/-! ## The operand fields of the formats with an immediate (R84 to R88)

S and B are R with bits of the immediate in the places of funct7 and rd, so their fixed fields are R's. -/

section
variable (rs2 rs1 : RegIndex) (f3 : Funct3) (rd : RegIndex) (op : Opcode) (imm : Word)

theorem encS_eq_encR : encS imm rs2 rs1 f3 op =
    encR (imm.extractLsb' 5 7) rs2 rs1 f3 (imm.extractLsb' 0 5) op := rfl

theorem encB_eq_encR : encB imm rs2 rs1 f3 op =
    encR (imm.extractLsb' 12 1 ++ imm.extractLsb' 5 6) rs2 rs1 f3
      (imm.extractLsb' 1 4 ++ imm.extractLsb' 11 1) op := by
  apply BitVec.eq_of_toNat_eq
  rw [encB_toNat, encR_toNat, toNat_cat (n := 1) (m := 6), toNat_cat (n := 4) (m := 1)]
  simp only [toNat_slice]
  omega

@[simp] theorem encS_funct3 : (encS imm rs2 rs1 f3 op).extractLsb' 12 3 = f3 := encR_funct3 ..
@[simp] theorem encS_rs1 : (encS imm rs2 rs1 f3 op).extractLsb' 15 5 = rs1 := encR_rs1 ..
@[simp] theorem encS_rs2 : (encS imm rs2 rs1 f3 op).extractLsb' 20 5 = rs2 := encR_rs2 ..

@[simp] theorem encB_funct3 : (encB imm rs2 rs1 f3 op).extractLsb' 12 3 = f3 := by
  rw [encB_eq_encR, encR_funct3]

@[simp] theorem encB_rs1 : (encB imm rs2 rs1 f3 op).extractLsb' 15 5 = rs1 := by
  rw [encB_eq_encR, encR_rs1]

@[simp] theorem encB_rs2 : (encB imm rs2 rs1 f3 op).extractLsb' 20 5 = rs2 := by
  rw [encB_eq_encR, encR_rs2]

@[simp] theorem encI_rd : (encI imm rs1 f3 rd op).extractLsb' 7 5 = rd := by
  apply BitVec.eq_of_toNat_eq; rw [toNat_slice, encI_toNat]; omega

@[simp] theorem encI_funct3 : (encI imm rs1 f3 rd op).extractLsb' 12 3 = f3 := by
  apply BitVec.eq_of_toNat_eq; rw [toNat_slice, encI_toNat]; omega

@[simp] theorem encI_rs1 : (encI imm rs1 f3 rd op).extractLsb' 15 5 = rs1 := by
  apply BitVec.eq_of_toNat_eq; rw [toNat_slice, encI_toNat]; omega

@[simp] theorem encU_rd : (encU imm rd op).extractLsb' 7 5 = rd := by
  apply BitVec.eq_of_toNat_eq; rw [toNat_slice, encU_toNat]; omega

@[simp] theorem encJ_rd : (encJ imm rd op).extractLsb' 7 5 = rd := by
  apply BitVec.eq_of_toNat_eq; rw [toNat_slice, encJ_toNat]; omega

end

/-! ## The encoded bits of an immediate, put together in the decoder's order -/

section
variable (rs2 rs1 : RegIndex) (f3 : Funct3) (rd : RegIndex) (op : Opcode)

@[simp] theorem encU_imm (imm : BitVec 20) : (encU (widenU imm) rd op).extractLsb' 12 20 = imm := by
  apply BitVec.eq_of_toNat_eq; rw [toNat_slice, encU_toNat, widenU_toNat]; omega

@[simp] theorem encI_imm (imm : BitVec 12) :
    (encI (widen12 imm) rs1 f3 rd op).extractLsb' 20 12 = imm := by
  apply BitVec.eq_of_toNat_eq; rw [toNat_slice, encI_toNat, widen12_toNat]; omega

@[simp] theorem encS_imm (imm : BitVec 12) :
    (encS (widen12 imm) rs2 rs1 f3 op).extractLsb' 25 7
      ++ (encS (widen12 imm) rs2 rs1 f3 op).extractLsb' 7 5 = imm := by
  rw [encS_eq_encR, encR_funct7, encR_rd]
  apply BitVec.eq_of_toNat_eq
  rw [toNat_cat (n := 7) (m := 5), toNat_slice, toNat_slice, widen12_toNat]
  omega

@[simp] theorem encB_imm (imm : BitVec 12) :
    (encB (widenB imm) rs2 rs1 f3 op).extractLsb' 31 1
      ++ (encB (widenB imm) rs2 rs1 f3 op).extractLsb' 7 1
      ++ (encB (widenB imm) rs2 rs1 f3 op).extractLsb' 25 6
      ++ (encB (widenB imm) rs2 rs1 f3 op).extractLsb' 8 4 = imm := by
  apply BitVec.eq_of_getLsbD_eq
  intro i hi
  show BitVec.getLsbD (w := 1 + 1 + 6 + 4) _ i = _
  simp only [BitVec.getLsbD_append, BitVec.getLsbD_extractLsb']
  interval_cases i <;> simp [BitVec.getLsbD_eq_getElem, encB_bit, widenB_bit]

@[simp] theorem encJ_imm (imm : BitVec 20) :
    (encJ (widenJ imm) rd op).extractLsb' 31 1 ++ (encJ (widenJ imm) rd op).extractLsb' 12 8
      ++ (encJ (widenJ imm) rd op).extractLsb' 20 1
      ++ (encJ (widenJ imm) rd op).extractLsb' 21 10 = imm := by
  apply BitVec.eq_of_getLsbD_eq
  intro i hi
  show BitVec.getLsbD (w := 1 + 8 + 1 + 10) _ i = _
  simp only [BitVec.getLsbD_append, BitVec.getLsbD_extractLsb']
  interval_cases i <;> simp [BitVec.getLsbD_eq_getElem, encJ_bit, widenJ_bit]

end

/-! ## The decoder after the encoder -/

/-- The opcode of an encoded word selects the instruction's class, and each slice the decoder takes is the
operand the encoder put there. -/
theorem decodeWord_encode {i : Instr} (h : i.wf = true) : decodeWord (encode i) = i := by
  cases i with
  | lui => simp [encode, decodeWord_lui]
  | auipc => simp [encode, decodeWord_auipc]
  | jal => simp [encode, decodeWord_jal]
  | jalr => simp [encode, decodeWord_jalr]
  | load => simp [encode, decodeWord_load]
  | branch => simp [encode, decodeWord_branch]
  | store => simp [encode, decodeWord_store]
  | opImm => simp [encode, decodeWord_opImm]
  | op funct7 rs2 rs1 funct3 rd =>
    have hcodes : ¬ (funct7 = 0b0100000#7 ∧ funct3 = 0b000#3) := 
      not_and_or.mpr (by simpa [Instr.wf] using h)
    simp only [encode, encR_opcode, encR_funct7, encR_funct3, encR_rs2, encR_rs1, encR_rd,
      hcodes, not_false_eq_true, decodeWord_op]
  | sub => simp [encode, decodeWord_sub]
  | not32Low00 =>
    exact (decodeWord_low00 _ BitVec.extractLsb'_append_eq_right).trans
      (congrArg Instr.not32Low00 BitVec.extractLsb'_append_eq_left)
  | not32Low01 =>
    exact (decodeWord_low01 _ BitVec.extractLsb'_append_eq_right).trans
      (congrArg Instr.not32Low01 BitVec.extractLsb'_append_eq_left)
  | not32Low10 =>
    exact (decodeWord_low10 _ BitVec.extractLsb'_append_eq_right).trans
      (congrArg Instr.not32Low10 BitVec.extractLsb'_append_eq_left)
  | not32Long =>
    exact (decodeWord_long _ BitVec.extractLsb'_append_eq_right).trans
      (congrArg Instr.not32Long BitVec.extractLsb'_append_eq_left)
  -- the 19 unnamed opcodes (R221), all laid out as R
  | _ => simp [encode, decodeWord_opc0000111, decodeWord_opc0001011, decodeWord_opc0001111,
      decodeWord_opc0011011, decodeWord_opc0100111, decodeWord_opc0101011, decodeWord_opc0101111,
      decodeWord_opc0111011, decodeWord_opc1000011, decodeWord_opc1000111, decodeWord_opc1001011,
      decodeWord_opc1001111, decodeWord_opc1010011, decodeWord_opc1010111, decodeWord_opc1011011,
      decodeWord_opc1101011, decodeWord_opc1110011, decodeWord_opc1110111, decodeWord_opc1111011]

/-! ## Bytes in memory order (R54) -/

/-- The four bytes of a word, with anything behind them, decode to the word's instruction. -/
theorem decode_bytesOfWord (w : Word) (rest : List Byte) :
    decode (bytesOfWord w ++ rest) = .ok (decodeWord w, rest) := by
  simp only [bytesOfWord, List.cons_append, List.nil_append, decode, wordOfBytes_slices]

/-- Fewer than four bytes are no word (R57). -/
theorem decode_short {bytes : List Byte} (h : bytes.length < 4) :
    decode bytes = .error (.shortRead bytes.length) := by
  match bytes, h with
  | [], _ | [_], _ | [_, _], _ | [_, _, _], _ => rfl
  | _ :: _ :: _ :: _ :: rest, h =>
    simp only [List.length_cons] at h
    omega

/-- Settles O4: the bytes are the word's, and the decoder undoes the encoder. -/
theorem bytesDecodeLittleEndian : Obligations.BytesDecodeLittleEndian :=
  ⟨fun i rest h => by rw [decode_bytesOfWord, decodeWord_encode h], fun _ => decode_short⟩

end Sys2Proof
end

section
/-! The memory family (spec/20_memory.md), its machine: what a fetch reads from a linked or placed
source (R54 to R57), a decode cycle repeated (R58), and the data source, dead to the core (R53). -/

namespace Sys2Proof.Machine

/-! ## Fetch -/

/-- A source that holds the four bytes at the fetch address gives their little-endian word. -/
theorem fetch_of_le {m : Memory} {pc : Word} (h : (fetchAddr pc).toNat + 4 ≤ m.size) :
    fetch (some m) pc = .ok (wordOfBytes (m.byte (fetchAddr pc).toNat)
      (m.byte ((fetchAddr pc).toNat + 1)) (m.byte ((fetchAddr pc).toNat + 2))
      (m.byte ((fetchAddr pc).toNat + 3))) := by
  simp [fetch, memRead4, Nat.not_lt.mpr h]

/-- A source that ends before the fourth byte gives the error of R252. -/
theorem fetch_of_lt {m : Memory} {pc : Word} (h : m.size < (fetchAddr pc).toNat + 4) :
    fetch (some m) pc = .error (.outOfBounds (fetchAddr pc)) := by
  simp [fetch, memRead4, h]

/-- Values that agree in bits [31:2] have the same fetch address (R55). -/
theorem fetchAddr_congr {pc pc' : Word} (h : pc.extractLsb' 2 30 = pc'.extractLsb' 2 30) :
    fetchAddr pc = fetchAddr pc' := by
  have hbits := congrArg BitVec.toNat h
  simp only [toNat_slice] at hbits
  apply BitVec.eq_of_toNat_eq
  rw [fetchAddr_toNat, fetchAddr_toNat]
  omega

/-- Settles O40: the bits that agree make the fetch address. -/
theorem fetchIgnoresLowPcBits : Obligations.FetchIgnoresLowPcBits := fun source _ _ h =>
  fetch_congr (fetchAddr_congr h) source

@[simp] theorem perform_fetch (pc : PcArg) (s : State) :
    perform (.fetch pc) s = callFetch (pc.eval s) s := rfl

@[simp] theorem perform_linkSource (image : List Byte) (s : State) :
    perform (.linkSource image) s
      = .next ((s.setSource (some (Memory.ofBytes image))).setOutput .done) := rfl

/-- Inside the image a linked image's byte is the image's. -/
theorem ofBytes_byte_of_lt {image : List Byte} {a : Nat} (h : a < image.length) :
    (Memory.ofBytes image).byte a = image[a] := by
  rw [Memory.ofBytes_byte, List.getD_eq_getElem _ _ h]

/-- Settles O42: the source after the link is the image alone, so the image's length decides. -/
theorem linkedImageIsFetched : Obligations.LinkedImageIsFetched := by
  intro s image
  refine ⟨_, perform_linkSource image s, fun pc => ⟨fun h => ?_, fun h => fetch_of_lt h⟩⟩
  rw [setOutput_source, setSource_source, fetch_of_le (by simpa using h)]
  rw [ofBytes_byte_of_lt, ofBytes_byte_of_lt, ofBytes_byte_of_lt, ofBytes_byte_of_lt]

/-! ## A word placed at the fetch address (log 7) -/

/-- A word placed at the fetch address is the word fetched. -/
theorem fetch_placeWord {m : Memory} (h : m.wf = true) (pc w : Word) :
    fetch (some (m.placeWord (fetchAddr pc).toNat w)) pc = .ok w := by
  rw [fetch_of_le (by rw [Memory.placeWord_size]; omega)]
  simp [Memory.byte_placeWord h, wordOfBytes_slices]

theorem decodeCycle_of_fetch {s : State} {pc w : Word} (h : fetch s.source pc = .ok w) :
    decodeCycle pc s = exec (decodeWord w) s := by
  simp only [decodeCycle, h]

theorem nextCall_congr {s t : State} (h : t.calls = s.calls) : nextCall t = nextCall s := by
  simp only [nextCall, h]

/-- All that placing a word changes: the source holds it at the fetch address, and the caller's list is
such that a decode cycle at the pc is next. -/
theorem withFetchWord_eq (s : State) (nbits w : Nat) : ∃ calls,
    s.withFetchWord nbits w = (s.setSource (some ((s.source.getD Memory.empty).placeWord
      (fetchAddr s.pc).toNat (tableWord nbits w)))).setCalls calls ∧
    nextCall (s.withFetchWord nbits w) = .decodeCycle .register := by
  unfold State.withFetchWord placeAtFetch
  split
  · next h => exact ⟨s.calls, rfl, (nextCall_congr rfl).trans h⟩
  · exact ⟨_, rfl, rfl⟩

/-- What a word is placed in, the linked source or the empty one, is in canonical form. -/
theorem linkWf_getD {source : Option Memory} (h : linkWf source = true) :
    (source.getD Memory.empty).wf = true := by
  cases source with
  | none => exact Memory.empty_wf
  | some m => exact h

/-- Settles O35: the next operation is a decode cycle at the pc, and its fetch reads the placed word. -/
theorem placedWordRunsNext : Obligations.PlacedWordRunsNext := by
  intro s nbits w hwf
  obtain ⟨calls, heq, hnext⟩ := withFetchWord_eq s nbits w
  rw [step_of_nextCall hnext, perform_decodeCycle, heq]
  exact ⟨decodeCycle_of_fetch (fetch_placeWord (linkWf_getD hwf) s.pc _), rfl, rfl, rfl, rfl⟩

/-! ## A decode cycle repeated (R58) -/

theorem step_of_calls_nil {s : State} (h : s.calls = []) : step s = decodeCycle s.pc s := by
  rw [step_of_nextCall (nextCall_of_nil h), dropCall_of_nil h, perform_decodeCycle]
  rfl

/-- Settles O37: the first cycle changed the output alone, and the second, which agrees with it, puts the
same output there. -/
theorem repeatedDecodeCycleIsIdempotent : Obligations.RepeatedDecodeCycleIsIdempotent := by
  intro s t hcalls hstep
  obtain ⟨o, rfl⟩ : ∃ o, t = s.setOutput o := by
    simpa [nextCall_of_nil hcalls, dropCall_of_nil hcalls] using step_next_cases hstep
  rw [step_of_calls_nil hcalls] at hstep
  rw [step_of_calls_nil (s := s.setOutput o) hcalls]
  obtain ⟨o', hfirst, hsecond⟩ | ⟨e, hfault, -⟩ :=
    decodeCycle_agree (s := s) (s' := s.setOutput o) (pc := s.pc) rfl rfl rfl
  · have hsame : s.setOutput o' = s.setOutput o := Host.Outcome.next.inj (hfirst.symm.trans hstep)
    exact hsecond.trans (congrArg Host.Outcome.next hsame)
  · exact absurd (hfault.symm.trans hstep) nofun

/-! ## The data source (R53) -/

/-- The outcome with another data source linked: the next state has it, a stop is the same. -/
def withData (m : Option Memory) : Outcome → Outcome
  | .next t => .next (t.setDataSource m)
  | .fault e => .fault e
  | .refused r => .refused r

section
variable (m : Option Memory) (s : State)

theorem raise_setDataSource (e : Fault) : raise (s.setDataSource m) e = withData m (raise s e) := by
  obtain ⟨hpolicy, h⟩ | ⟨hpolicy, h⟩ := raise_cases s e
  · rw [h]
    exact raise_of_stop (s := s.setDataSource m) hpolicy e
  · rw [h]
    exact raise_of_goOn (s := s.setDataSource m) hpolicy e

theorem writeX_setDataSource (i : RegIndex) (v : Word) :
    writeX (s.setDataSource m) i v = (writeX s i v).setDataSource m := by
  unfold writeX
  split <;> rfl

theorem callFetch_setDataSource (pc : Word) :
    callFetch pc (s.setDataSource m) = withData m (callFetch pc s) := by
  unfold callFetch
  rw [setDataSource_source]
  cases fetch s.source pc with
  | error e => exact raise_setDataSource m s e
  | ok w => rfl

theorem decodeCycle_setDataSource (pc : Word) :
    decodeCycle pc (s.setDataSource m) = withData m (decodeCycle pc s) := by
  unfold decodeCycle
  rw [setDataSource_source]
  cases fetch s.source pc with
  | error e => exact raise_setDataSource m s e
  | ok w =>
    obtain ⟨d, hd⟩ := exec_drives (decodeWord w)
    simp only [hd]
    rfl

@[simp] theorem eval_setDataSource (pc : PcArg) : pc.eval (s.setDataSource m) = pc.eval s := by
  cases pc <;> rfl

/-- No operation but the linking of a data source reads or writes the one linked. -/
theorem perform_setDataSource {c : Call} (hc : ∀ image, c ≠ .linkData image) :
    perform c (s.setDataSource m) = withData m (perform c s) := by
  cases c with
  | fetch pc => rw [perform_fetch, perform_fetch, eval_setDataSource, callFetch_setDataSource]
  | decodeCycle pc =>
    rw [perform_decodeCycle, perform_decodeCycle, eval_setDataSource, decodeCycle_setDataSource]
  | writeReg r v =>
    rw [perform_writeReg, perform_writeReg, writeX_setDataSource]
    rfl
  | linkData image => exact absurd rfl (hc image)
  | _ => rfl

end

/-- Settles O56: a step commutes with exchanging the data source, and only a link of one changes it. -/
theorem dataSourceIsDead : Obligations.DataSourceIsDead := by
  intro s hcall
  have hstep (m : Option Memory) : step (s.setDataSource m) = withData m (step s) :=
    perform_setDataSource m (dropCall s) hcall
  refine ⟨fun t ht => ⟨?_, fun m => by rw [hstep, ht]; rfl⟩, fun e he m => by rw [hstep, he]; rfl⟩
  by_contra hne
  obtain ⟨image, hlink, -⟩ := (onlyLinkingChangesSources s t ht).2 hne
  exact hcall image hlink

end Sys2Proof.Machine
end

section
/-! The encoding family (spec/30_encoding.md): words written out by hand decode to their instructions,
and the decoder undoes the encoder. -/

namespace Sys2Proof

/-- Settles O2: every slice the decoder takes of an encoded word is the operand the encoder put there. -/
theorem decodeAfterEncode : Obligations.DecodeAfterEncode := fun _ => decodeWord_encode

/-- Settles O1: each word's opcode selects its class, and the operands are the slices the class takes. -/
theorem writtenOutWordsDecode : Obligations.WrittenOutWordsDecode :=
  ⟨decodeWord_sub _ rfl ⟨rfl, rfl⟩, decodeWord_lui _ rfl, decodeWord_auipc _ rfl,
    decodeWord_jal _ rfl, decodeWord_jalr _ rfl, decodeWord_load _ rfl, decodeWord_branch _ rfl,
    decodeWord_store _ rfl, decodeWord_opImm _ rfl, decodeWord_op _ rfl (by decide),
    decodeWord_opc1110011 _ rfl, decodeWord_low00 _ rfl, decodeWord_low01 _ rfl,
    decodeWord_low10 _ rfl, decodeWord_long _ rfl⟩

end Sys2Proof
end

section
/-! The fetch unit's family (spec/40_fetch_unit.md): the word a fetch assembles from its four bytes
(R121), and the fetch as a call (R120, R122). -/

namespace Sys2Proof

/-! ## The little-endian word (R121) -/

section
variable (b0 b1 b2 b3 : Byte)

@[simp] theorem wordOfBytes_byte0 : (wordOfBytes b0 b1 b2 b3).extractLsb' 0 8 = b0 := by
  apply BitVec.eq_of_toNat_eq; rw [toNat_slice, wordOfBytes_toNat]; omega

@[simp] theorem wordOfBytes_byte1 : (wordOfBytes b0 b1 b2 b3).extractLsb' 8 8 = b1 := by
  apply BitVec.eq_of_toNat_eq; rw [toNat_slice, wordOfBytes_toNat]; omega

@[simp] theorem wordOfBytes_byte2 : (wordOfBytes b0 b1 b2 b3).extractLsb' 16 8 = b2 := by
  apply BitVec.eq_of_toNat_eq; rw [toNat_slice, wordOfBytes_toNat]; omega

@[simp] theorem wordOfBytes_byte3 : (wordOfBytes b0 b1 b2 b3).extractLsb' 24 8 = b3 := by
  apply BitVec.eq_of_toNat_eq; rw [toNat_slice, wordOfBytes_toNat]; omega

/-- A byte shifted into place stays below bit 32, so the shift is a product of numbers. -/
theorem shiftedByte_toNat (b : Byte) {k : Nat} (hk : k ≤ 24) :
    (b.setWidth 32 <<< k).toNat = b.toNat * 2 ^ k := by
  have hpow : 2 ^ k ≤ 2 ^ 24 := Nat.pow_le_pow_right (by omega) hk
  have hprod : b.toNat * 2 ^ k ≤ 255 * 2 ^ 24 := Nat.mul_le_mul (by omega) hpow
  rw [BitVec.toNat_shiftLeft, BitVec.toNat_setWidth_of_le (by omega), Nat.shiftLeft_eq,
    Nat.mod_eq_of_lt (by omega)]

/-- The assembled word is the sum of its shifted bytes, which does not wrap. -/
theorem wordOfBytes_eq_sum : wordOfBytes b0 b1 b2 b3 =
    b0.setWidth 32 + (b1.setWidth 32 <<< 8) + (b2.setWidth 32 <<< 16) + (b3.setWidth 32 <<< 24) := by
  apply BitVec.eq_of_toNat_eq
  simp only [wordOfBytes_toNat, BitVec.toNat_add, BitVec.toNat_setWidth,
    shiftedByte_toNat _ (show 8 ≤ 24 by omega), shiftedByte_toNat _ (show 16 ≤ 24 by omega),
    shiftedByte_toNat _ (show 24 ≤ 24 by omega)]
  omega

end

end Sys2Proof

namespace Sys2Proof.Machine

/-! ## The fetch and its call -/

theorem fetch_none (pc : Word) : fetch none pc = .error .noSource := rfl

/-- Settles O39: the link and the size decide between the two errors and the word, whose slices and sum
are those of the four bytes assembled. -/
theorem fetchReadsAlignedLittleEndian : Obligations.FetchReadsAlignedLittleEndian := by
  intro source pc
  refine ⟨fetchAddr_toNat pc, ?_, ?_⟩
  · rintro rfl
    exact fetch_none pc
  · rintro m rfl
    exact ⟨fetch_of_lt, fun hsize => ⟨_, fetch_of_le hsize, wordOfBytes_byte0 ..,
      wordOfBytes_byte1 .., wordOfBytes_byte2 .., wordOfBytes_byte3 .., wordOfBytes_eq_sum ..⟩⟩

/-- A fetch that finds its word writes the output alone (R122). -/
theorem callFetch_of_fetch {s : State} {pc w : Word} (h : fetch s.source pc = .ok w) :
    callFetch pc s = .next (s.setOutput (.word w)) := by
  simp only [callFetch, h, finish]

/-- Settles O41: taking the call off the list leaves the source and the pc, so its fetch finds the same
word. -/
theorem fetchCallHandsBackTheWord : Obligations.FetchCallHandsBackTheWord := by
  intro s pc w hcall hfetch
  rw [step_of_nextCall hcall, perform_fetch, eval_dropCall]
  exact callFetch_of_fetch hfetch

end Sys2Proof.Machine
end

section
/-! The field decoder's family (spec/41_field_decoder.md), its words: re-encoding what a word decodes
to gives the word back (R82, R140). -/

namespace Sys2Proof

open Machine (immU immJ immI immB immS immU_toNat immJ_toNat immI_toNat immB_toNat immS_toNat
  immB_bit immJ_bit)

/-! ## The decoder's immediate, widened, is the block's reconstruction (R89 to R93) -/

section
variable (w : Word)

theorem widenU_slices : widenU (w.extractLsb' 12 20) = immU w := rfl

theorem widenJ_slices : widenJ (w.extractLsb' 31 1 ++ w.extractLsb' 12 8 ++ w.extractLsb' 20 1
    ++ w.extractLsb' 21 10) = immJ w := by
  apply BitVec.eq_of_toNat_eq
  rw [widenJ_toNat, immJ_toNat]
  show BitVec.toNat (w := 1 + 8 + 1 + 10) _ * 2 = _
  simp only [toNat_cat, toNat_slice]
  omega

theorem widen12_slices : widen12 (w.extractLsb' 20 12) = immI w := rfl

theorem widenB_slices : widenB (w.extractLsb' 31 1 ++ w.extractLsb' 7 1 ++ w.extractLsb' 25 6
    ++ w.extractLsb' 8 4) = immB w := by
  apply BitVec.eq_of_toNat_eq
  rw [widenB_toNat, immB_toNat]
  show BitVec.toNat (w := 1 + 1 + 6 + 4) _ * 2 = _
  simp only [toNat_cat, toNat_slice]
  omega

theorem widen12_slices_S : widen12 (w.extractLsb' 25 7 ++ w.extractLsb' 7 5) = immS w := by
  apply BitVec.eq_of_toNat_eq
  rw [widen12_toNat, immS_toNat]
  show BitVec.toNat (w := 7 + 5) _ = _
  simp only [toNat_cat, toNat_slice]
  omega

end

/-! ## Each encoder undoes the slices of its format -/

section
variable {w : Word} {op : Opcode} (h : w.extractLsb' 0 7 = op)
include h

theorem encR_slices : encR (w.extractLsb' 25 7) (w.extractLsb' 20 5) (w.extractLsb' 15 5)
    (w.extractLsb' 12 3) (w.extractLsb' 7 5) op = w := by
  subst h
  apply BitVec.eq_of_toNat_eq
  simp only [encR_toNat, toNat_slice]
  omega

theorem encI_immI :
    encI (immI w) (w.extractLsb' 15 5) (w.extractLsb' 12 3) (w.extractLsb' 7 5) op = w := by
  subst h
  apply BitVec.eq_of_toNat_eq
  simp only [encI_toNat, immI_toNat, toNat_slice]
  omega

theorem encS_immS :
    encS (immS w) (w.extractLsb' 20 5) (w.extractLsb' 15 5) (w.extractLsb' 12 3) op = w := by
  subst h
  apply BitVec.eq_of_toNat_eq
  simp only [encS_toNat, immS_toNat, toNat_slice]
  omega

theorem encB_immB :
    encB (immB w) (w.extractLsb' 20 5) (w.extractLsb' 15 5) (w.extractLsb' 12 3) op = w := by
  subst h
  ext i hi
  rw [encB_bit]
  interval_cases i <;> simp [BitVec.getLsbD_eq_getElem, immB_bit]

theorem encU_immU : encU (immU w) (w.extractLsb' 7 5) op = w := by
  subst h
  apply BitVec.eq_of_toNat_eq
  simp only [encU_toNat, immU_toNat, toNat_slice]
  omega

theorem encJ_immJ : encJ (immJ w) (w.extractLsb' 7 5) op = w := by
  subst h
  ext i hi
  rw [encJ_bit]
  interval_cases i <;> simp [BitVec.getLsbD_eq_getElem, immJ_bit]

end

/-- The bits above a low pattern, with the pattern put back, are the word. -/
theorem high_append_low (n m : Nat) {x : BitVec (n + m)} {low : BitVec m}
    (h : x.extractLsb' 0 m = low) : x.extractLsb' m n ++ low = x := by
  subst h
  rw [BitVec.extractLsb'_append_extractLsb'_eq_extractLsb' (Nat.zero_add m).symm,
    BitVec.extractLsb'_eq_self]

/-! ## The encoder after the decoder -/

/-- By R96's classes: the decoder takes the slices of the class's format, and the format's encoder
undoes them. -/
theorem encode_decodeWord (w : Word) : encode (decodeWord w) = w := by
  rcases opcode_cases (w.extractLsb' 0 7) with h | h | h | h | h | h | h | h | h | h | h | h | h | h
    | h | h | h | h | h | h | h | h | h | h | h | h | h | h | h | h | h | h
  rotate_right 4
  -- the four patterns that are not of 32-bit format (R222 to R225)
  · rw [low2_of_opcode] at h
    rw [decodeWord_low00 w h, encode]
    exact high_append_low 30 2 h
  · rw [low2_of_opcode] at h
    rw [decodeWord_low01 w h, encode]
    exact high_append_low 30 2 h
  · rw [low2_of_opcode] at h
    rw [decodeWord_low10 w h, encode]
    exact high_append_low 30 2 h
  · rw [low5_of_opcode] at h
    rw [decodeWord_long w h, encode]
    exact high_append_low 27 5 h
  -- LUI, AUIPC, JAL, JALR, loads, branches, stores, ALU-immediate (R211 to R218)
  · rw [decodeWord_lui w h, encode, widenU_slices, encU_immU h]
  · rw [decodeWord_auipc w h, encode, widenU_slices, encU_immU h]
  · rw [decodeWord_jal w h, encode, widenJ_slices, encJ_immJ h]
  · rw [decodeWord_jalr w h, encode, widen12_slices, encI_immI h]
  · rw [decodeWord_load w h, encode, widen12_slices, encI_immI h]
  · rw [decodeWord_branch w h, encode, widenB_slices, encB_immB h]
  · rw [decodeWord_store w h, encode, widen12_slices_S, encS_immS h]
  · rw [decodeWord_opImm w h, encode, widen12_slices, encI_immI h]
  -- register-register, SUB's function codes apart (R219, R220)
  · by_cases hcodes : w.extractLsb' 25 7 = 0b0100000#7 ∧ w.extractLsb' 12 3 = 0b000#3
    · rw [decodeWord_sub w h hcodes, encode, ← hcodes.1, ← hcodes.2, encR_slices h]
    · rw [decodeWord_op w h hcodes, encode, encR_slices h]
  -- the 19 unnamed opcodes (R221), all laid out as R
  all_goals simp only [decodeWord_opc0000111, decodeWord_opc0001011, decodeWord_opc0001111,
    decodeWord_opc0011011, decodeWord_opc0100111, decodeWord_opc0101011, decodeWord_opc0101111,
    decodeWord_opc0111011, decodeWord_opc1000011, decodeWord_opc1000111, decodeWord_opc1001011,
    decodeWord_opc1001111, decodeWord_opc1010011, decodeWord_opc1010111, decodeWord_opc1011011,
    decodeWord_opc1101011, decodeWord_opc1110011, decodeWord_opc1110111, decodeWord_opc1111011,
    encode, encR_slices, h]

/-- An ill-formed instruction is an `op` with SUB's codes (log 6), and its word decodes to `sub`. -/
theorem decodeWord_wf (w : Word) : (decodeWord w).wf = true := by
  cases hi : decodeWord w with
  | op funct7 rs2 rs1 funct3 rd =>
    have hw : encR funct7 rs2 rs1 funct3 rd 0b0110011#7 = w := by
      rw [← encode_decodeWord w, hi, encode]
    by_contra hill
    have hcodes : funct7 = 0b0100000#7 ∧ funct3 = 0b000#3 := by simpa [Instr.wf] using hill
    rw [← hw, decodeWord_sub _ (encR_opcode ..) (by rwa [encR_funct7, encR_funct3])] at hi
    cases hi
  | _ => rfl

/-- Settles O3: the decoder is total and drops no bit. -/
theorem encodeAfterDecode : Obligations.EncodeAfterDecode :=
  fun w => ⟨decodeWord_wf w, encode_decodeWord w⟩

end Sys2Proof
end

section
/-! The field decoder's family (spec/41_field_decoder.md), its block: the length class, the fields
(R142 to R149), and the instructions' meanings against the block (R150, R171, R210). -/

namespace Sys2Proof.Machine

/-! ## The length class (R142) -/

@[simp] theorem decodeFields_success (w : Word) : (decodeFields w).success = is32BitFormat w := by
  unfold decodeFields
  split
  · next h => exact h.symm
  · next h => exact (Bool.eq_false_of_not_eq_true h).symm

theorem is32BitFormat_iff (w : Word) : is32BitFormat w = true ↔
    w.extractLsb' 0 2 = 0b11#2 ∧ w.extractLsb' 2 3 ≠ 0b111#3 := by
  simp [is32BitFormat]

/-- Both slices the test reads lie in instr[4:0]. -/
theorem is32BitFormat_congr {v w : Word} (h : v.extractLsb' 0 5 = w.extractLsb' 0 5) :
    is32BitFormat v = is32BitFormat w := by
  have hslice {lo len : Nat} (hle : lo + len ≤ 5) :
      v.extractLsb' lo len = w.extractLsb' lo len := by
    rw [← BitVec.extractLsb'_extractLsb'_of_le hle, h, BitVec.extractLsb'_extractLsb'_of_le hle]
  rw [is32BitFormat, hslice (by omega : 0 + 2 ≤ 5), hslice (by omega : 2 + 3 ≤ 5), is32BitFormat]

/-- The opcode alone, widened to a word, passes the test exactly when the word does. -/
theorem is32BitFormat_of_opcode {w : Word} {op : Opcode} (h : w.extractLsb' 0 7 = op) :
    is32BitFormat w = is32BitFormat (op.setWidth 32) := by
  apply is32BitFormat_congr
  rw [← low5_of_opcode, h, BitVec.extractLsb'_setWidth_of_le (by omega)]

theorem is32BitFormat_of_low2 {w : Word} {low : BitVec 2} (h : w.extractLsb' 0 2 = low)
    (hlow : low ≠ 0b11#2) : is32BitFormat w = false := by
  rw [← h] at hlow
  exact Bool.eq_false_of_not_eq_true fun hw => hlow ((is32BitFormat_iff w).mp hw).1

theorem is32BitFormat_of_long {w : Word} (h : w.extractLsb' 0 5 = 0b11111#5) :
    is32BitFormat w = false :=
  is32BitFormat_congr (w := 0b11111#32) h

/-- A mask of adjacent bits keeps their slice in place. -/
theorem and_sliceMask (w : Word) (lo len : Nat) :
    w &&& ((BitVec.allOnes len).setWidth 32 <<< lo)
      = (w.extractLsb' lo len).setWidth 32 <<< lo := by
  ext i hi
  by_cases hlo : i < lo
  · simp [hlo]
  · simp [hlo, Nat.add_sub_cancel' (Nat.le_of_not_lt hlo)]
    rw [BitVec.getLsbD_eq_getElem hi, Bool.and_comm]

theorem low2_masked_iff (w : Word) :
    w &&& 0x7F#32 &&& 0b11#32 = 0b11#32 ↔ w.extractLsb' 0 2 = 0b11#2 := by
  have hmask : w &&& 0x7F#32 &&& 0b11#32 = (w.extractLsb' 0 2).setWidth 32 <<< 0 := by
    rw [BitVec.and_assoc]
    exact and_sliceMask w 0 2
  rw [hmask]
  generalize w.extractLsb' 0 2 = low
  revert low
  decide

theorem bits4_2_masked_iff (w : Word) :
    w &&& 0x7F#32 &&& 0b11100#32 = 0b11100#32 ↔ w.extractLsb' 2 3 = 0b111#3 := by
  have hmask : w &&& 0x7F#32 &&& 0b11100#32 = (w.extractLsb' 2 3).setWidth 32 <<< 2 := by
    rw [BitVec.and_assoc]
    exact and_sliceMask w 2 3
  rw [hmask]
  generalize w.extractLsb' 2 3 = mid
  revert mid
  decide

/-- Settles O7: each mask keeps its slice, and both slices lie in instr[4:0]. -/
theorem successIsTheTwoPartTest : Obligations.SuccessIsTheTwoPartTest := by
  intro w
  simp only [decodeFields_success]
  refine ⟨?_, is32BitFormat_iff w, fun v h => is32BitFormat_congr h⟩
  rw [is32BitFormat_iff, low2_masked_iff, ne_eq, ne_eq, bits4_2_masked_iff]

/-! ## The fields and the block (R143 to R150, R210) -/

theorem decodeFields_of_success {w : Word} (h : is32BitFormat w = true) :
    decodeFields w = { opcode := w.extractLsb' 0 7, funct3 := w.extractLsb' 12 3,
                       funct7 := w.extractLsb' 25 7, rs1 := w.extractLsb' 15 5,
                       rs2 := w.extractLsb' 20 5, rd := w.extractLsb' 7 5, success := true } :=
  if_pos h

theorem decodeFields_of_failure {w : Word} (h : is32BitFormat w = false) :
    decodeFields w = noFields := by
  simp only [decodeFields, h, Bool.false_eq_true, if_false]

/-- Settles O10: the fields of a successful word are written as its slices. -/
theorem successfulFieldsAreSlices : Obligations.SuccessfulFieldsAreSlices := by
  intro w h
  rw [decodeFields_success] at h
  rw [decodeFields_of_success h]
  exact ⟨rfl, rfl, rfl, rfl, rfl, rfl⟩

/-- The zeroed opcode selects no immediate (R143, R179). -/
theorem portsNot32_eq_decodeBlock {w : Word} (h : is32BitFormat w = false) :
    portsNot32 = decodeBlock w := by
  rw [decodeBlock, decodeFields_of_failure h]
  rfl

theorem decodeBlock_of_opcode {w : Word} {op : Opcode} (hop : w.extractLsb' 0 7 = op)
    (h32 : is32BitFormat (op.setWidth 32) = true) :
    decodeBlock w =
      { fields := { opcode := op, funct3 := w.extractLsb' 12 3, funct7 := w.extractLsb' 25 7,
                    rs1 := w.extractLsb' 15 5, rs2 := w.extractLsb' 20 5, rd := w.extractLsb' 7 5,
                    success := true }
        imm := decodeImmediate w op } := by
  rw [decodeBlock, decodeFields_of_success ((is32BitFormat_of_opcode hop).trans h32), hop]

/-! ## Every format is R with bits of the immediate in some of its fields (R227) -/

section
variable (rs1 : RegIndex) (f3 : Funct3) (rd : RegIndex) (op : Opcode) (imm : Word)

theorem encI_eq_encR : encI imm rs1 f3 rd op =
    encR (imm.extractLsb' 5 7) (imm.extractLsb' 0 5) rs1 f3 rd op := by
  apply BitVec.eq_of_toNat_eq
  simp only [encI_toNat, encR_toNat, toNat_slice]
  omega

theorem encU_eq_encR : encU imm rd op = encR (imm.extractLsb' 25 7) (imm.extractLsb' 20 5)
    (imm.extractLsb' 15 5) (imm.extractLsb' 12 3) rd op := by
  apply BitVec.eq_of_toNat_eq
  simp only [encU_toNat, encR_toNat, toNat_slice]
  omega

theorem encJ_eq_encR : encJ imm rd op =
    encR (imm.extractLsb' 20 1 ++ imm.extractLsb' 5 6) (imm.extractLsb' 1 4 ++ imm.extractLsb' 11 1)
      (imm.extractLsb' 15 5) (imm.extractLsb' 12 3) rd op := by
  have hbits19_12 : imm.toNat / 2 ^ 12 % 2 ^ 8
      = imm.toNat / 2 ^ 15 % 2 ^ 5 * 2 ^ 3 + imm.toNat / 2 ^ 12 % 2 ^ 3 := by omega
  have hbits10_1 : imm.toNat / 2 % 2 ^ 10
      = imm.toNat / 2 ^ 5 % 2 ^ 6 * 2 ^ 4 + imm.toNat / 2 % 2 ^ 4 := by omega
  apply BitVec.eq_of_toNat_eq
  rw [encJ_toNat, encR_toNat, toNat_cat (n := 1) (m := 6), toNat_cat (n := 4) (m := 1),
    hbits19_12, hbits10_1]
  simp only [toNat_slice]
  omega

end

/-! ## Slices of a widened immediate, by the bits the widening puts below -/

theorem widenU_slice (imm : BitVec 20) (lo len : Nat) :
    (widenU imm).extractLsb' (lo + 12) len = imm.extractLsb' lo len := by
  apply BitVec.eq_of_toNat_eq
  rw [toNat_slice, toNat_slice, widenU_toNat, Nat.pow_add, Nat.mul_div_mul_right _ _ (by omega)]

theorem widenJ_slice (imm : BitVec 20) (lo len : Nat) :
    (widenJ imm).extractLsb' (lo + 1) len = imm.extractLsb' lo len := by
  apply BitVec.eq_of_toNat_eq
  rw [toNat_slice, toNat_slice, widenJ_toNat, Nat.pow_succ, Nat.mul_div_mul_right _ _ (by omega)]

theorem widenB_slice (imm : BitVec 12) (lo len : Nat) :
    (widenB imm).extractLsb' (lo + 1) len = imm.extractLsb' lo len := by
  apply BitVec.eq_of_toNat_eq
  rw [toNat_slice, toNat_slice, widenB_toNat, Nat.pow_succ, Nat.mul_div_mul_right _ _ (by omega)]

theorem widen12_slice (imm : BitVec 12) (lo len : Nat) :
    (widen12 imm).extractLsb' lo len = imm.extractLsb' lo len := by
  apply BitVec.eq_of_toNat_eq
  rw [toNat_slice, toNat_slice, widen12_toNat]

/-! ## The widened immediate as the ports write it, and as the block reconstructs it -/

theorem setWidth_eq_widen12 (imm : BitVec 12) : imm.setWidth 32 = widen12 imm := by
  apply BitVec.eq_of_toNat_eq
  rw [widen12_toNat, BitVec.toNat_setWidth]
  omega

theorem shifted_eq_widenB (imm : BitVec 12) : imm.setWidth 32 <<< 1 = widenB imm := by
  apply BitVec.eq_of_toNat_eq
  rw [widenB_toNat, BitVec.toNat_shiftLeft, BitVec.toNat_setWidth, Nat.shiftLeft_eq]
  omega

theorem shifted_eq_widenJ (imm : BitVec 20) : imm.setWidth 32 <<< 1 = widenJ imm := by
  apply BitVec.eq_of_toNat_eq
  rw [widenJ_toNat, BitVec.toNat_shiftLeft, BitVec.toNat_setWidth, Nat.shiftLeft_eq]
  omega

theorem shifted_eq_widenU (imm : BitVec 20) : imm.setWidth 32 <<< 12 = widenU imm := by
  apply BitVec.eq_of_toNat_eq
  rw [widenU_toNat, BitVec.toNat_shiftLeft, BitVec.toNat_setWidth, Nat.shiftLeft_eq]
  omega

section
variable (rs2 rs1 : RegIndex) (f3 : Funct3) (rd : RegIndex) (op : Opcode)

@[simp] theorem immU_encU (imm : BitVec 20) : immU (encU (widenU imm) rd op) = widenU imm := by
  rw [← widenU_slices, encU_imm]

@[simp] theorem immJ_encJ (imm : BitVec 20) : immJ (encJ (widenJ imm) rd op) = widenJ imm := by
  rw [← widenJ_slices, encJ_imm]

@[simp] theorem immI_encI (imm : BitVec 12) :
    immI (encI (widen12 imm) rs1 f3 rd op) = widen12 imm := by
  rw [← widen12_slices, encI_imm]

@[simp] theorem immB_encB (imm : BitVec 12) :
    immB (encB (widenB imm) rs2 rs1 f3 op) = widenB imm := by
  rw [← widenB_slices, encB_imm]

@[simp] theorem immS_encS (imm : BitVec 12) :
    immS (encS (widen12 imm) rs2 rs1 f3 op) = widen12 imm := by
  rw [← widen12_slices_S, encS_imm]

end

/-! ## The operand forms are the block on the encoded word (R227) -/

section
variable {op : Opcode} (h32 : is32BitFormat (op.setWidth 32) = true)
  (rs2 rs1 : RegIndex) (f3 : Funct3) (rd : RegIndex)
include h32

theorem portsR_eq_decodeBlock (f7 : Funct7) (himm : ∀ w, decodeImmediate w op = 0#32) :
    portsR op f7 rs2 rs1 f3 rd = decodeBlock (encR f7 rs2 rs1 f3 rd op) := by
  simp only [decodeBlock_of_opcode (encR_opcode ..) h32, himm, encR_funct7, encR_rs2, encR_rs1,
    encR_funct3, encR_rd, portsR]

theorem portsI_eq_decodeBlock (imm : BitVec 12) (himm : ∀ w, decodeImmediate w op = immI w) :
    portsI op rd f3 rs1 imm = decodeBlock (encI (widen12 imm) rs1 f3 rd op) := by
  rw [decodeBlock_of_opcode (encI_opcode ..) h32, himm, immI_encI, encI_eq_encR]
  simp only [encR_funct7, encR_rs2, encR_rs1, encR_funct3, encR_rd, widen12_slice, portsI,
    setWidth_eq_widen12]

theorem portsINoImm_eq_decodeBlock (hi : BitVec 12) (himm : ∀ w, decodeImmediate w op = 0#32) :
    portsINoImm op rd f3 rs1 hi = decodeBlock (encI (widen12 hi) rs1 f3 rd op) := by
  rw [decodeBlock_of_opcode (encI_opcode ..) h32, himm, encI_eq_encR]
  simp only [encR_funct7, encR_rs2, encR_rs1, encR_funct3, encR_rd, widen12_slice, portsINoImm]

theorem portsS_eq_decodeBlock (imm : BitVec 12) (himm : ∀ w, decodeImmediate w op = immS w) :
    portsS op f3 rs1 rs2 imm = decodeBlock (encS (widen12 imm) rs2 rs1 f3 op) := by
  rw [decodeBlock_of_opcode (encS_opcode ..) h32, himm, immS_encS, encS_eq_encR]
  simp only [encR_funct7, encR_rs2, encR_rs1, encR_funct3, encR_rd, widen12_slice, portsS,
    setWidth_eq_widen12]

theorem portsB_eq_decodeBlock (imm : BitVec 12) (himm : ∀ w, decodeImmediate w op = immB w) :
    portsB op f3 rs1 rs2 imm = decodeBlock (encB (widenB imm) rs2 rs1 f3 op) := by
  rw [decodeBlock_of_opcode (encB_opcode ..) h32, himm, immB_encB, encB_eq_encR]
  simp only [encR_funct7, encR_rs2, encR_rs1, encR_funct3, encR_rd, widenB_slice, portsB,
    shifted_eq_widenB]

theorem portsU_eq_decodeBlock (imm : BitVec 20) (himm : ∀ w, decodeImmediate w op = immU w) :
    portsU op rd imm = decodeBlock (encU (widenU imm) rd op) := by
  rw [decodeBlock_of_opcode (encU_opcode ..) h32, himm, immU_encU, encU_eq_encR]
  simp only [encR_funct7, encR_rs2, encR_rs1, encR_funct3, encR_rd, widenU_slice, portsU,
    shifted_eq_widenU]

theorem portsJ_eq_decodeBlock (imm : BitVec 20) (himm : ∀ w, decodeImmediate w op = immJ w) :
    portsJ op rd imm = decodeBlock (encJ (widenJ imm) rd op) := by
  rw [decodeBlock_of_opcode (encJ_opcode ..) h32, himm, immJ_encJ, encJ_eq_encR]
  simp only [encR_funct7, encR_rs2, encR_rs1, encR_funct3, encR_rd, widenJ_slice, portsJ,
    shifted_eq_widenJ]

end

/-! ## The instructions' meanings and the block -/

/-- Each meaning is the operand form of its format; well-formedness is not needed. -/
theorem exec_eq_drive_decodeBlock (i : Instr) (s : State) :
    exec i s = drive s (decodeBlock (encode i)) := by
  cases i with
  | lui => exact congrArg (drive s) (portsU_eq_decodeBlock rfl _ _ fun _ => rfl)
  | auipc => exact congrArg (drive s) (portsU_eq_decodeBlock rfl _ _ fun _ => rfl)
  | jal => exact congrArg (drive s) (portsJ_eq_decodeBlock rfl _ _ fun _ => rfl)
  | jalr => exact congrArg (drive s) (portsI_eq_decodeBlock rfl _ _ _ _ fun _ => rfl)
  | load => exact congrArg (drive s) (portsI_eq_decodeBlock rfl _ _ _ _ fun _ => rfl)
  | branch => exact congrArg (drive s) (portsB_eq_decodeBlock rfl _ _ _ _ fun _ => rfl)
  | store => exact congrArg (drive s) (portsS_eq_decodeBlock rfl _ _ _ _ fun _ => rfl)
  | opImm => exact congrArg (drive s) (portsINoImm_eq_decodeBlock rfl _ _ _ _ fun _ => rfl)
  | not32Low00 => exact congrArg (drive s) (portsNot32_eq_decodeBlock
      (is32BitFormat_of_low2 (low := 0b00#2) BitVec.extractLsb'_append_eq_right (by decide)))
  | not32Low01 => exact congrArg (drive s) (portsNot32_eq_decodeBlock
      (is32BitFormat_of_low2 (low := 0b01#2) BitVec.extractLsb'_append_eq_right (by decide)))
  | not32Low10 => exact congrArg (drive s) (portsNot32_eq_decodeBlock
      (is32BitFormat_of_low2 (low := 0b10#2) BitVec.extractLsb'_append_eq_right (by decide)))
  | not32Long => exact congrArg (drive s) (portsNot32_eq_decodeBlock
      (is32BitFormat_of_long BitVec.extractLsb'_append_eq_right))
  -- register-register, `sub` and the 19 unnamed opcodes (R219 to R221), all laid out as R
  | _ => exact congrArg (drive s) (portsR_eq_decodeBlock rfl _ _ _ _ _ fun _ => rfl)

/-- Settles O32: an instruction drives what the block puts out for its encoding, and the encoding of
what a word decodes to is the word. -/
theorem instructionsAgreeWithTheBlock : Obligations.InstructionsAgreeWithTheBlock := by
  intro w s
  rw [exec_eq_drive_decodeBlock, encode_decodeWord]
  rfl

/-- Settles O9: the block drives what R143 zeroes, and by O32 so does the word's instruction. -/
theorem failedClassificationGivesZeroes : Obligations.FailedClassificationGivesZeroes := by
  intro w h
  rw [decodeFields_success] at h
  refine ⟨decodeFields_of_failure h, 0, fun s => ?_⟩
  rw [instructionsAgreeWithTheBlock w s, ← portsNot32_eq_decodeBlock h]
  rfl

end Sys2Proof.Machine
end

section
/-! The immediate decoder's family (spec/42_immediate_decoder.md): what the opcode input selects (R171,
R178) and the sums of R174 and R176, which never carry (R183). -/

namespace Sys2Proof.Machine

/-! ## The multiplexer, by opcode (R171) -/

section
variable (w : Word)

@[simp] theorem decodeImmediate_lui : decodeImmediate w 0b0110111#7 = immU w := rfl
@[simp] theorem decodeImmediate_auipc : decodeImmediate w 0b0010111#7 = immU w := rfl
@[simp] theorem decodeImmediate_jal : decodeImmediate w 0b1101111#7 = immJ w := rfl
@[simp] theorem decodeImmediate_jalr : decodeImmediate w 0b1100111#7 = immI w := rfl
@[simp] theorem decodeImmediate_load : decodeImmediate w 0b0000011#7 = immI w := rfl
@[simp] theorem decodeImmediate_branch : decodeImmediate w 0b1100011#7 = immB w := rfl
@[simp] theorem decodeImmediate_store : decodeImmediate w 0b0100011#7 = immS w := rfl

theorem decodeImmediate_of_not_trigger {op : Opcode}
    (h : op ∉ [0b0110111#7, 0b0010111#7, 0b1101111#7, 0b1100111#7, 0b0000011#7, 0b1100011#7,
      0b0100011#7]) : decodeImmediate w op = 0 := by
  obtain ⟨rfl | rfl, -⟩ | ⟨rfl, -⟩ | ⟨rfl | rfl, -⟩ | ⟨rfl, -⟩ | ⟨rfl, -⟩ | ⟨-, hzero⟩ :=
    decodeImmediate_cases w op
  rotate_right
  · exact hzero
  -- under a trigger the hypothesis fails
  all_goals exact absurd (by simp) h

end

/-- Settles O14: no reconstruction is selected, and the triggers are seven of the 128 values. -/
theorem nonTriggersGiveZeroImmediate : Obligations.NonTriggersGiveZeroImmediate :=
  ⟨fun w _ h => decodeImmediate_of_not_trigger w h, rfl⟩

/-! ## The reconstructions from the word's bits (R89 to R93) -/

section
variable (w : Word)

theorem immU_eq_and_mask : immU w = w &&& 0xFFFFF000#32 := by
  rw [← widenU_slices, ← shifted_eq_widenU]
  exact (and_sliceMask w 12 20).symm

theorem immI_eq_ushiftRight : immI w = w >>> 20 := by
  apply BitVec.eq_of_toNat_eq
  rw [immI_toNat, BitVec.toNat_ushiftRight, Nat.shiftRight_eq_div_pow]

theorem immJ_eq_setWidth : immJ w =
    (w.extractLsb' 31 1 ++ w.extractLsb' 12 8 ++ w.extractLsb' 20 1 ++ w.extractLsb' 21 10
      ++ 0#1).setWidth 32 := by
  rw [BitVec.setWidth_append_eq_shiftLeft_setWidth_or, BitVec.setWidth_zero, BitVec.or_zero,
    ← widenJ_slices]
  exact (shifted_eq_widenJ _).symm

theorem immB_eq_setWidth : immB w =
    (w.extractLsb' 31 1 ++ w.extractLsb' 7 1 ++ w.extractLsb' 25 6 ++ w.extractLsb' 8 4
      ++ 0#1).setWidth 32 := by
  rw [BitVec.setWidth_append_eq_shiftLeft_setWidth_or, BitVec.setWidth_zero, BitVec.or_zero,
    ← widenB_slices]
  exact (shifted_eq_widenB _).symm

theorem immS_eq_or : immS w =
    (w.extractLsb' 25 7).setWidth 32 <<< 5 ||| (w.extractLsb' 7 5).setWidth 32 := by
  rw [← BitVec.setWidth_append_eq_shiftLeft_setWidth_or, ← widen12_slices_S]
  exact (setWidth_eq_widen12 _).symm

end

/-- Settles O13: each trigger selects the reconstruction that the word's bits spell, and no other
opcode selects one. -/
theorem eachOpcodeSelectsItsReconstruction : Obligations.EachOpcodeSelectsItsReconstruction := by
  intro w
  refine ⟨?_, immJ_eq_setWidth w, ?_, immB_eq_setWidth w, immS_eq_or w,
    fun _ => decodeImmediate_of_not_trigger w⟩
  · simp [immU_eq_and_mask]
  · simp [immI_eq_ushiftRight]

/-! ## The terms of the J and B sums (R174, R176, R183)

Two values put side by side share no bit position, so the or of their places is also the sum. -/

theorem shiftLeft_setWidth_and_setWidth {n m : Nat} (k : Nat) (a : BitVec n) (b : BitVec m) :
    a.setWidth k <<< m &&& b.setWidth k = 0#k := by
  ext i hi
  by_cases hlow : i < m
  · simp [hlow]
  · simp [BitVec.getLsbD_of_ge b i (by omega)]

theorem setWidth_append_eq_add {n m : Nat} (k : Nat) (a : BitVec n) (b : BitVec m) :
    (a ++ b).setWidth k = a.setWidth k <<< m + b.setWidth k := by
  rw [BitVec.setWidth_append_eq_shiftLeft_setWidth_or,
    BitVec.add_eq_or_of_and_eq_zero _ _ (shiftLeft_setWidth_and_setWidth k a b)]

/-- The concatenation of R90 and R92, bit 0 last: its four parts in their places, as a sum. -/
theorem setWidth_append_zero_eq_add {n m p q : Nat} (k : Nat) (a : BitVec n) (b : BitVec m)
    (c : BitVec p) (d : BitVec q) :
    (a ++ b ++ c ++ d ++ 0#1).setWidth k =
      a.setWidth k <<< (m + p + q + 1) + b.setWidth k <<< (p + q + 1) + c.setWidth k <<< (q + 1)
        + d.setWidth k <<< 1 := by
  simp only [setWidth_append_eq_add, BitVec.shiftLeft_add_distrib, BitVec.shiftLeft_add,
    BitVec.setWidth_zero, BitVec.add_zero]

/-- The same parts as an or. -/
theorem setWidth_append_zero_eq_or {n m p q : Nat} (k : Nat) (a : BitVec n) (b : BitVec m)
    (c : BitVec p) (d : BitVec q) :
    (a ++ b ++ c ++ d ++ 0#1).setWidth k =
      a.setWidth k <<< (m + p + q + 1) ||| b.setWidth k <<< (p + q + 1) ||| c.setWidth k <<< (q + 1)
        ||| d.setWidth k <<< 1 := by
  simp only [BitVec.setWidth_append_eq_shiftLeft_setWidth_or, BitVec.shiftLeft_or_distrib,
    BitVec.shiftLeft_add, BitVec.setWidth_zero, BitVec.or_zero]

theorem immJ_lt (w : Word) : (immJ w).toNat < 2 ^ 21 := by
  rw [immJ_eq_setWidth, BitVec.toNat_setWidth]
  exact (Nat.mod_le _ _).trans_lt (BitVec.isLt _)

theorem immB_lt (w : Word) : (immB w).toNat < 2 ^ 13 := by
  rw [immB_eq_setWidth, BitVec.toNat_setWidth]
  exact (Nat.mod_le _ _).trans_lt (BitVec.isLt _)

/-- Settles O16: the J and B datapaths concatenate the four terms, so these meet in no bit. -/
theorem immediateSumsNeverCarry : Obligations.ImmediateSumsNeverCarry := by
  intro w
  simp only [decodeImmediate_jal, decodeImmediate_branch]
  refine ⟨⟨?_, ?_, immJ_lt w⟩, ?_, ?_, immB_lt w⟩
  · exact (immJ_eq_setWidth w).trans (setWidth_append_zero_eq_add ..)
  · exact (immJ_eq_setWidth w).trans (setWidth_append_zero_eq_or ..)
  · exact (immB_eq_setWidth w).trans (setWidth_append_zero_eq_add ..)
  · exact (immB_eq_setWidth w).trans (setWidth_append_zero_eq_or ..)

end Sys2Proof.Machine
end

section
/-! The opcode classes' family (spec/43_opcode_classes.md), its rows: the row of the opcode table
that a word fits (R96, R220). -/

namespace Sys2Proof

/-! ## Each instruction's word fits its row -/

theorem rowOf_fits_encode : ∀ i : Instr, (rowOf i).fits (encode i) = true
  | .lui .. => Laws.FitsItsRow.lui ..
  | .auipc .. => Laws.FitsItsRow.auipc ..
  | .jal .. => Laws.FitsItsRow.jal ..
  | .jalr .. => Laws.FitsItsRow.jalr ..
  | .load .. => Laws.FitsItsRow.load ..
  | .branch .. => Laws.FitsItsRow.branch ..
  | .store .. => Laws.FitsItsRow.store ..
  | .opImm .. => Laws.FitsItsRow.opImm ..
  | .op .. => Laws.FitsItsRow.op ..
  | .sub .. => Laws.FitsItsRow.sub ..
  | .opc0000111 .. => Laws.FitsItsRow.opc0000111 ..
  | .opc0001011 .. => Laws.FitsItsRow.opc0001011 ..
  | .opc0001111 .. => Laws.FitsItsRow.opc0001111 ..
  | .opc0011011 .. => Laws.FitsItsRow.opc0011011 ..
  | .opc0100111 .. => Laws.FitsItsRow.opc0100111 ..
  | .opc0101011 .. => Laws.FitsItsRow.opc0101011 ..
  | .opc0101111 .. => Laws.FitsItsRow.opc0101111 ..
  | .opc0111011 .. => Laws.FitsItsRow.opc0111011 ..
  | .opc1000011 .. => Laws.FitsItsRow.opc1000011 ..
  | .opc1000111 .. => Laws.FitsItsRow.opc1000111 ..
  | .opc1001011 .. => Laws.FitsItsRow.opc1001011 ..
  | .opc1001111 .. => Laws.FitsItsRow.opc1001111 ..
  | .opc1010011 .. => Laws.FitsItsRow.opc1010011 ..
  | .opc1010111 .. => Laws.FitsItsRow.opc1010111 ..
  | .opc1011011 .. => Laws.FitsItsRow.opc1011011 ..
  | .opc1101011 .. => Laws.FitsItsRow.opc1101011 ..
  | .opc1110011 .. => Laws.FitsItsRow.opc1110011 ..
  | .opc1110111 .. => Laws.FitsItsRow.opc1110111 ..
  | .opc1111011 .. => Laws.FitsItsRow.opc1111011 ..
  | .not32Low00 .. => Laws.FitsItsRow.not32Low00 ..
  | .not32Low01 .. => Laws.FitsItsRow.not32Low01 ..
  | .not32Low10 .. => Laws.FitsItsRow.not32Low10 ..
  | .not32Long .. => Laws.FitsItsRow.not32Long ..

theorem rowOf_decodeWord_fits (w : Word) : (rowOf (decodeWord w)).fits w = true := by
  simpa only [encode_decodeWord] using rowOf_fits_encode (decodeWord w)

theorem opRow_fits_of_sub {w : Word} {rs2 rs1 rd : RegIndex} (h : decodeWord w = .sub rs2 rs1 rd) :
    opRow.fits w = true := by
  rw [← encode_decodeWord w, h]
  exact Laws.fits_of_opcode "OP" _ 0b0110011#7 (encR_opcode ..)

/-! ## No other two rows share a word -/

/-- Rows that share a word agree where both masks look. -/
theorem Row.fits_agree {r r' : Row} {w : Word} (h : r.fits w = true) (h' : r'.fits w = true) :
    r.pattern &&& r'.mask = r'.pattern &&& r.mask := by
  rw [Row.fits, beq_iff_eq] at h h'
  rw [← h, ← h', BitVec.and_assoc, BitVec.and_assoc, BitVec.and_comm r.mask]

/-- In the table two rows that agree where both masks look are one row, or OP's and SUB's (R220). -/
theorem opcodeTable_overlaps : ∀ j k : Fin 33,
    (opcodeTable.get j).pattern &&& (opcodeTable.get k).mask
      = (opcodeTable.get k).pattern &&& (opcodeTable.get j).mask →
    j = k ∨ j = 8 ∧ k = 9 ∨ j = 9 ∧ k = 8 := by
  decide

theorem rowIndex_eq_op {i : Instr} (h : rowIndex i = 8) :
    ∃ funct7 rs2 rs1 funct3 rd, i = .op funct7 rs2 rs1 funct3 rd := by
  cases i with
  | op => exact ⟨_, _, _, _, _, rfl⟩
  | _ => simp [rowIndex] at h

theorem rowIndex_eq_sub {i : Instr} (h : rowIndex i = 9) : ∃ rs2 rs1 rd, i = .sub rs2 rs1 rd := by
  cases i with
  | sub => exact ⟨_, _, _, rfl⟩
  | _ => simp [rowIndex] at h

/-- A word of SUB's row does not decode to `op`, whose well-formed terms leave SUB's codes out. -/
theorem decodeWord_ne_op_of_subRow {w : Word} (h : w &&& 0xFE00707F#32 = 0x40000033#32)
    (funct7 : Funct7) (rs2 rs1 : RegIndex) (funct3 : Funct3) (rd : RegIndex) :
    decodeWord w ≠ .op funct7 rs2 rs1 funct3 rd := by
  rw [Laws.and_subMask] at h
  have hfunct7 : w.extractLsb' 25 7 = 0b0100000#7 :=
    (encR_funct7 ..).symm.trans (congrArg (BitVec.extractLsb' 25 7) h)
  have hfunct3 : w.extractLsb' 12 3 = 0b000#3 :=
    (encR_funct3 ..).symm.trans (congrArg (BitVec.extractLsb' 12 3) h)
  have hop : w.extractLsb' 0 7 = 0b0110011#7 :=
    (encR_opcode ..).symm.trans (congrArg (BitVec.extractLsb' 0 7) h)
  rw [decodeWord_sub w hop ⟨hfunct7, hfunct3⟩]
  exact nofun

/-- Settles O5: a word fits its instruction's row; the table's one overlap is OP's with SUB's. -/
theorem everyWordFitsExactlyItsRow : Obligations.EveryWordFitsExactlyItsRow := by
  intro w r hr
  constructor
  · intro hfits
    obtain ⟨j, rfl⟩ := List.mem_iff_get.mp hr
    obtain h | ⟨hj, hi⟩ | ⟨hj, hi⟩ := opcodeTable_overlaps j (rowIndex (decodeWord w))
      (Row.fits_agree hfits (rowOf_decodeWord_fits w))
    · exact .inl (congrArg opcodeTable.get h)
    · exact .inr ⟨congrArg opcodeTable.get hj, rowIndex_eq_sub hi⟩
    · obtain ⟨funct7, rs2, rs1, funct3, rd, hop⟩ := rowIndex_eq_op hi
      rw [hj] at hfits
      exact absurd hop (decodeWord_ne_op_of_subRow (beq_iff_eq.mp hfits) funct7 rs2 rs1 funct3 rd)
  · rintro (rfl | ⟨rfl, rs2, rs1, rd, hsub⟩)
    · exact rowOf_decodeWord_fits w
    · exact opRow_fits_of_sub hsub

end Sys2Proof
end

section
/-! The opcode classes' family (spec/43_opcode_classes.md), its machine: what each class puts out
(R211 to R225), the frame of all of them (R228), and the decode cycle that runs them (R210). -/

namespace Sys2Proof.Machine

/-! ## The reconstructions as the classes state them -/

section
variable (w : Word)

theorem immI_eq_setWidth : immI w = (w.extractLsb' 20 12).setWidth 32 := by
  rw [setWidth_eq_widen12, widen12_slices]

theorem immS_eq_setWidth : immS w = (w.extractLsb' 25 7 ++ w.extractLsb' 7 5).setWidth 32 :=
  (widen12_slices_S w).symm.trans (setWidth_eq_widen12 _).symm

theorem immJ_even : (immJ w).toNat % 2 = 0 := by
  rw [immJ_toNat]
  omega

theorem immB_even : (immB w).toNat % 2 = 0 := by
  rw [immB_toNat]
  omega

theorem immJ_le : (immJ w).toNat ≤ 0x1FFFFE := by
  have hlt := immJ_lt w
  have heven := immJ_even w
  omega

theorem immB_le : (immB w).toNat ≤ 0x1FFE := by
  have hlt := immB_lt w
  have heven := immB_even w
  omega

end

/-! ## The classes of 32-bit format (R211 to R221) -/

/-- What R211 to R221 share: an instruction whose word has an opcode of 32-bit format drives the
word's slices and what the opcode selects, and changes nothing else. -/
theorem exec_of_opcode (s : State) {i : Instr} {op : Opcode} {imm : Word}
    (hop : (encode i).extractLsb' 0 7 = op)
    (h32 : is32BitFormat (op.setWidth 32) = true)
    (himm : decodeImmediate (encode i) op = imm) :
    exec i s = .next (s.setOutput (.decoded
      { fields :=
          { opcode := op, funct3 := (encode i).extractLsb' 12 3,
            funct7 := (encode i).extractLsb' 25 7, rs1 := (encode i).extractLsb' 15 5,
            rs2 := (encode i).extractLsb' 20 5, rd := (encode i).extractLsb' 7 5,
            success := true }
        imm })) := by
  rw [exec_eq_drive_decodeBlock, decodeBlock_of_opcode hop h32, himm]
  rfl

/-- Settles O19: the opcode selects the U reconstruction. -/
theorem luiOutputs : Obligations.LuiOutputs := fun _ _ s =>
  ⟨encU_opcode .., exec_of_opcode s (encU_opcode ..) rfl (decodeImmediate_lui _),
    immU_eq_and_mask _⟩

/-- Settles O20: the opcode selects the U reconstruction, which has no pc in it. -/
theorem auipcOutputs : Obligations.AuipcOutputs := fun _ _ s =>
  ⟨encU_opcode .., exec_of_opcode s (encU_opcode ..) rfl (decodeImmediate_auipc _),
    immU_eq_and_mask _⟩

/-- Settles O21: the opcode selects the J reconstruction. -/
theorem jalOutputs : Obligations.JalOutputs := fun _ _ s =>
  ⟨encJ_opcode .., exec_of_opcode s (encJ_opcode ..) rfl (decodeImmediate_jal _),
    immJ_le _, immJ_even _⟩

/-- Settles O22: the opcode selects the I reconstruction, whatever funct3. -/
theorem jalrOutputs : Obligations.JalrOutputs := fun _ _ _ _ s =>
  ⟨encI_opcode .., exec_of_opcode s (encI_opcode ..) rfl
    ((decodeImmediate_jalr _).trans (immI_eq_setWidth _))⟩

/-- Settles O23: the opcode selects the I reconstruction, whatever funct3. -/
theorem loadOutputs : Obligations.LoadOutputs := fun _ _ _ _ s =>
  ⟨encI_opcode .., exec_of_opcode s (encI_opcode ..) rfl
    ((decodeImmediate_load _).trans (immI_eq_setWidth _))⟩

/-- Settles O24: the opcode selects the B reconstruction, whatever funct3. -/
theorem branchOutputs : Obligations.BranchOutputs := fun _ _ _ _ s =>
  ⟨encB_opcode .., exec_of_opcode s (encB_opcode ..) rfl (decodeImmediate_branch _),
    immB_le _, immB_even _⟩

/-- Settles O25: the opcode selects the S reconstruction, whatever funct3. -/
theorem storeOutputs : Obligations.StoreOutputs := fun _ _ _ _ s =>
  ⟨encS_opcode .., exec_of_opcode s (encS_opcode ..) rfl
    ((decodeImmediate_store _).trans (immS_eq_setWidth _))⟩

/-- Settles O26: the opcode is no trigger, and the two fields lie side by side. -/
theorem opImmOutputs : Obligations.OpImmOutputs := fun _ _ _ _ s =>
  ⟨encI_opcode .., exec_of_opcode s (encI_opcode ..) rfl
    (decodeImmediate_of_not_trigger _ (by decide)),
    BitVec.extractLsb'_append_extractLsb'_eq_extractLsb' rfl⟩

/-- Settles O27: the opcode is no trigger, whatever the function codes. -/
theorem opOutputs : Obligations.OpOutputs := fun _ _ _ _ _ s =>
  ⟨encR_opcode .., exec_of_opcode s (encR_opcode ..) rfl
    (decodeImmediate_of_not_trigger _ (by decide))⟩

/-- Settles O28: the class of R219 at SUB's function codes. -/
theorem subOutputs : Obligations.SubOutputs := fun _ _ _ s =>
  ⟨encR_opcode .., exec_of_opcode s (encR_opcode ..) rfl
    (decodeImmediate_of_not_trigger _ (by decide)), encR_funct7 .., encR_funct3 ..⟩

/-- Settles O29: each of the 19 is laid out as R under its own opcode, and none is a trigger. -/
theorem unnamedOpcodeOutputs : Obligations.UnnamedOpcodeOutputs := by
  intro funct7 rs2 rs1 funct3 rd s p hp
  simp only [List.mem_cons, List.not_mem_nil, or_false] at hp
  rcases hp with rfl | rfl | rfl | rfl | rfl | rfl | rfl | rfl | rfl | rfl | rfl | rfl | rfl | rfl
    | rfl | rfl | rfl | rfl | rfl
  all_goals dsimp only
  all_goals exact ⟨encR_opcode .., exec_of_opcode s (encR_opcode ..) rfl
    (decodeImmediate_of_not_trigger _ (by decide))⟩

/-! ## The patterns that are not of 32-bit format (R222 to R225) -/

/-- Settles O30: each pattern is the low end of its word, and each meaning is the zeroed ports. -/
theorem not32BitOutputs : Obligations.Not32BitOutputs := by
  intro rest long s i hi
  refine ⟨⟨BitVec.extractLsb'_append_eq_right, BitVec.extractLsb'_append_eq_right,
    BitVec.extractLsb'_append_eq_right, BitVec.extractLsb'_append_eq_right⟩, ?_⟩
  simp only [List.mem_cons, List.not_mem_nil, or_false] at hi
  obtain rfl | rfl | rfl | rfl := hi
  all_goals rfl

/-! ## The frame of every class (R228) -/

/-- Settles O31: an instruction drives outputs of its own, and writes the output field alone. -/
theorem nothingIsExecuted : Obligations.NothingIsExecuted := by
  intro i
  obtain ⟨d, hd⟩ := exec_drives i
  exact ⟨d, fun s => ⟨_, hd s, rfl, readX_setOutput s _, rfl, rfl, rfl, rfl, fun _ => rfl,
    fun _ => rfl, rfl, rfl⟩⟩

/-! ## The decode cycle (R210) -/

theorem decodeCycle_of_error {s : State} {pc : Word} {e : Fault}
    (h : fetch s.source pc = .error e) : decodeCycle pc s = raise s e := by
  simp only [decodeCycle, h]

/-- Taking the call off the list leaves the source and the pc to its cycle. -/
theorem step_of_decodeCycle {s : State} {pc : PcArg} (h : nextCall s = .decodeCycle pc) :
    step s = decodeCycle (pc.eval s) (dropCall s) := by
  rw [step_of_nextCall h, perform_decodeCycle, eval_dropCall]

/-- Settles O36: the fetched word's instruction agrees with the block; an error comes before it. -/
theorem decodeCycleIsFetchThenBlock : Obligations.DecodeCycleIsFetchThenBlock := by
  intro s pc hcall
  rw [step_of_decodeCycle hcall]
  refine ⟨fun w hfetch => ?_, fun e hfetch => decodeCycle_of_error hfetch⟩
  rw [decodeCycle_of_fetch (s := dropCall s) hfetch]
  exact instructionsAgreeWithTheBlock w (dropCall s)

/-- Settles O33: the fetch puts together the word of the same four bytes. -/
theorem stepRunsTheDecodedInstruction : Obligations.StepRunsTheDecodedInstruction := by
  rintro s pc m i a hcall hsource rfl hsize - hdecode
  have hfetch := hsource ▸ fetch_of_le hsize
  obtain ⟨hinstr, -⟩ := Prod.mk.inj (Except.ok.inj hdecode)
  rw [step_of_decodeCycle hcall, decodeCycle_of_fetch (s := dropCall s) hfetch, hinstr]

end Sys2Proof.Machine
end

section
/-! The exceptions' family (spec/60_exceptions.md): which error a fetch ends in (R251, R252), how it
ends the step that fetches (R257 to R259), and that nothing else stops a step (R266). -/

namespace Sys2Proof.Machine

/-! ## The fetch and its errors -/

/-- The link alone tells which of its two errors a fetch ends in (D22). -/
theorem fetch_error_cases {source : Option Memory} {pc : Word} {e : Fault}
    (h : fetch source pc = .error e) :
    e = .noSource ∧ source = none ∨ e = .outOfBounds (fetchAddr pc) ∧ source ≠ none := by
  obtain ⟨hsource, hfetch⟩ | ⟨m, hsource, -, hfetch⟩ | ⟨m, -, -, hfetch⟩ := fetch_cases source pc
  · exact .inl ⟨Except.error.inj (h.symm.trans hfetch), hsource⟩
  · exact .inr ⟨Except.error.inj (h.symm.trans hfetch), by simp [hsource]⟩
  · exact absurd (h.symm.trans hfetch) nofun

theorem fetch_of_fetchable {s : State} {pc : Word} (h : s.Fetchable pc) :
    ∃ w, fetch s.source pc = .ok w := by
  obtain ⟨m, hsource, hsize⟩ := h
  exact ⟨_, hsource ▸ fetch_of_le hsize⟩

theorem callFetch_of_error {s : State} {pc : Word} {e : Fault}
    (h : fetch s.source pc = .error e) : callFetch pc s = raise s e := by
  simp only [callFetch, h]

/-- Taking the call off the list leaves the source and the pc to its fetch. -/
theorem step_of_fetch {s : State} {pc : PcArg} (h : nextCall s = .fetch pc) :
    step s = callFetch (pc.eval s) (dropCall s) := by
  rw [step_of_nextCall h, perform_fetch, eval_dropCall]

/-! ## The two operations that fetch -/

section
variable {s : State} {pc : PcArg} (hcall : nextCall s = .fetch pc ∨ nextCall s = .decodeCycle pc)
include hcall

theorem step_of_fetch_error {e : Fault} (hfetch : fetch s.source (pc.eval s) = .error e) :
    step s = raise (dropCall s) e := by
  obtain hcall | hcall := hcall
  · exact (step_of_fetch hcall).trans (callFetch_of_error hfetch)
  · exact (step_of_decodeCycle hcall).trans (decodeCycle_of_error hfetch)

theorem step_of_fetch_ok {w : Word} (hfetch : fetch s.source (pc.eval s) = .ok w) :
    ∃ t, step s = .next t := by
  obtain hcall | hcall := hcall
  · exact ⟨_, (step_of_fetch hcall).trans (callFetch_of_fetch hfetch)⟩
  · obtain ⟨d, hd⟩ := exec_drives (decodeWord w)
    exact ⟨_, (step_of_decodeCycle hcall).trans
      ((decodeCycle_of_fetch (s := dropCall s) hfetch).trans (hd _))⟩

/-- A step that fetches goes on, or its caller stops on the error its fetch ended in. -/
theorem step_fetching_cases : (∃ t, step s = .next t) ∨
    ∃ e, fetch s.source (pc.eval s) = .error e ∧ s.onError = .stop ∧ step s = .fault e := by
  cases hfetch : fetch s.source (pc.eval s) with
  | ok w => exact .inl (step_of_fetch_ok hcall hfetch)
  | error e =>
    have hstep := step_of_fetch_error hcall hfetch
    obtain ⟨hstop, hraise⟩ | ⟨-, hraise⟩ := raise_cases (dropCall s) e
    · exact .inr ⟨e, rfl, hstop, hstep.trans hraise⟩
    · exact .inl ⟨_, hstep.trans hraise⟩

end

/-- Settles O43: the step raises its fetch's error, and the caller's policy says what that does. -/
theorem fetchErrorChangesNothing : Obligations.FetchErrorChangesNothing := by
  intro s pc e hcall hfetch
  rw [step_of_fetch_error hcall hfetch]
  exact ⟨fetch_error_cases hfetch, fun hstop => raise_of_stop (s := dropCall s) hstop e,
    fun hgoOn => raise_of_goOn (s := dropCall s) hgoOn e⟩

/-! ## Every step -/

/-- A step goes on, or it is a fetching one whose caller stops on the error. -/
theorem step_cases (s : State) : (∃ t, step s = .next t) ∨
    ∃ pc e, (nextCall s = .fetch pc ∨ nextCall s = .decodeCycle pc) ∧
      fetch s.source (pc.eval s) = .error e ∧ s.onError = .stop ∧ step s = .fault e := by
  cases hcall : nextCall s with
  | fetch pc =>
    exact (step_fetching_cases (.inl hcall)).imp_right fun ⟨e, h⟩ => ⟨pc, e, .inl rfl, h⟩
  | decodeCycle pc =>
    exact (step_fetching_cases (.inr hcall)).imp_right fun ⟨e, h⟩ => ⟨pc, e, .inr rfl, h⟩
  | _ => exact .inl ⟨_, step_of_nextCall hcall⟩

/-- Settles O44: the one way not to go on is a fault, by a fetch, of a caller that stops. -/
theorem onlyFetchErrorsStop : Obligations.OnlyFetchErrorsStop := by
  intro s
  refine ⟨fun r hrefused => ?_, fun e hfault => ?_, fun hgoOn => ?_, fun pc hcall hfetchable => ?_⟩
  · obtain ⟨t, hstep⟩ | ⟨pc, e, -, -, -, hstep⟩ := step_cases s
    · exact absurd (hstep.symm.trans hrefused) nofun
    · exact absurd (hstep.symm.trans hrefused) nofun
  · obtain ⟨t, hstep⟩ | ⟨pc, e', hcall, hfetch, hstop, hstep⟩ := step_cases s
    · exact absurd (hstep.symm.trans hfault) nofun
    · obtain rfl := Host.Outcome.fault.inj (hstep.symm.trans hfault)
      exact ⟨hstop, pc, hcall, hfetch⟩
  · obtain hnext | ⟨pc, e, -, -, hstop, -⟩ := step_cases s
    · exact hnext
    · exact absurd (hgoOn.symm.trans hstop) nofun
  · obtain ⟨w, hfetch⟩ := fetch_of_fetchable hfetchable
    exact step_of_fetch_ok hcall hfetch

end Sys2Proof.Machine
end

section
/-! The reset family (spec/70_reset_and_hazards.md): the operation `reset()`, and the machine after
construction, whose registers and pc are as that operation leaves them (R280, R281). -/

namespace Sys2Proof.Machine

/-! ## The operation `reset()` -/

/-- Two resets in a row equal one: a second one finds nothing to change, not even the output. -/
theorem perform_reset_again {s t : State} (h : perform .reset s = .next t) :
    perform .reset t = .next t := by
  rw [perform_reset] at h
  obtain rfl := Host.Outcome.next.inj h
  rfl

/-- A write along an access path always completes, and the slot it reaches then shows the value cut to
32 bits, slot 0 excepted (R22, R24). -/
theorem writeReg_shows_in_slot (s : State) (r : RegRef) (v : Nat) :
    ∃ u, perform (.writeReg r v) s = .next u ∧
      readX u r.slot = if r.slot = 0 then 0 else BitVec.ofNat 32 v :=
  ⟨_, perform_writeReg s r v, (readX_setOutput ..).trans (readX_writeX_same ..)⟩

/-! ## The machine after construction -/

/-- Construction has the effect of `reset()` on the values (R280): resetting the constructed machine
changes nothing. -/
theorem resetRegisters_reset : resetRegisters State.reset = State.reset := rfl

@[simp] theorem readX_reset (i : RegIndex) : readX State.reset i = 0 := by
  rw [← resetRegisters_reset]
  exact readX_resetRegisters State.reset i

@[simp] theorem reset_pc : State.reset.pc = 0 := rfl

@[simp] theorem reset_source : State.reset.source = none := rfl

@[simp] theorem reset_dataSource : State.reset.dataSource = none := rfl

@[simp] theorem fetchAddr_zero : fetchAddr 0 = 0 := by decide

/-! ## The statements -/

/-- Settles O49: `reset()` writes the registers and the pc alone, with fixed values, so repeating it
changes nothing; what a handle reaches afterwards is its slot, as in every state. -/
theorem resetZeroesRegistersAndPc : Obligations.ResetZeroesRegistersAndPc := by
  refine ⟨fun s => ?_, readX_reset, reset_pc⟩
  refine ⟨_, perform_reset s, fun i => ?zeroed, rfl, rfl, rfl, rfl, rfl, ?again, fun i v => ?handle⟩
  case zeroed => rw [readX_setOutput, readX_resetRegisters]; rfl
  case again => exact perform_reset_again (perform_reset s)
  case handle => exact writeReg_shows_in_slot _ (.handle (linkHandle i)) v

/-- Settles O50: the values of R281's first column, and the pc 0 is its own fetch address. -/
theorem constructionValues : Obligations.ConstructionValues :=
  ⟨readX_reset, reset_pc, reset_source, by rw [reset_pc, fetchAddr_zero]⟩

/-- Settles O58: the constructed file is zeroed as by `reset()`, and with no source linked there is no
byte sequence whose form could be wrong. -/
theorem constructionMeetsTheInvariant : Obligations.ConstructionMeetsTheInvariant where
  zeroCell := resetRegisters_zeroCell State.reset
  source := by rw [reset_source]; rfl
  data := by rw [reset_dataSource]; rfl

end Sys2Proof.Machine
end

section
/-! Laws the spec derives from its own rules, on the words: the encoders of R105 against the
reconstructions of R89 to R93, both ways round (R184.4). -/

namespace Sys2Proof

open Machine (immU immJ immI immB immS immU_bit immJ_bit immI_bit immB_bit immS_bit)

/-! ## A reconstruction of an encoded word: the bits of the immediate that the format encodes -/

section
variable (imm : Word) (rs2 rs1 : RegIndex) (f3 : Funct3) (rd : RegIndex) (op : Opcode)

theorem immU_encU_eq_and : immU (encU imm rd op) = imm &&& 0xFFFFF000#32 := by
  ext i hi
  rw [immU_bit, BitVec.getElem_and]
  interval_cases i <;> simp [BitVec.getLsbD_eq_getElem, encU_bit]

theorem immJ_encJ_eq_and : immJ (encJ imm rd op) = imm &&& 0x001FFFFE#32 := by
  ext i hi
  rw [immJ_bit, BitVec.getElem_and]
  interval_cases i <;> simp [BitVec.getLsbD_eq_getElem, encJ_bit]

theorem immI_encI_eq_and : immI (encI imm rs1 f3 rd op) = imm &&& 0x00000FFF#32 := by
  ext i hi
  rw [immI_bit, BitVec.getElem_and]
  interval_cases i <;> simp [BitVec.getLsbD_eq_getElem, encI_bit]

theorem immB_encB_eq_and : immB (encB imm rs2 rs1 f3 op) = imm &&& 0x00001FFE#32 := by
  ext i hi
  rw [immB_bit, BitVec.getElem_and]
  interval_cases i <;> simp [BitVec.getLsbD_eq_getElem, encB_bit]

theorem immS_encS_eq_and : immS (encS imm rs2 rs1 f3 op) = imm &&& 0x00000FFF#32 := by
  ext i hi
  rw [immS_bit, BitVec.getElem_and]
  interval_cases i <;> simp [BitVec.getLsbD_eq_getElem, encS_bit]

/-! ## An encoder drops the other bits: it encodes what the reconstruction gives back -/

theorem encU_and_mask : encU (imm &&& 0xFFFFF000#32) rd op = encU imm rd op := by
  simpa only [immU_encU_eq_and, encU_rd] using encU_immU (encU_opcode rd op imm)

theorem encJ_and_mask : encJ (imm &&& 0x001FFFFE#32) rd op = encJ imm rd op := by
  simpa only [immJ_encJ_eq_and, encJ_rd] using encJ_immJ (encJ_opcode rd op imm)

theorem encI_and_mask : encI (imm &&& 0x00000FFF#32) rs1 f3 rd op = encI imm rs1 f3 rd op := by
  simpa only [immI_encI_eq_and, encI_rs1, encI_funct3, encI_rd] using
    encI_immI (encI_opcode rs1 f3 rd op imm)

theorem encB_and_mask : encB (imm &&& 0x00001FFE#32) rs2 rs1 f3 op = encB imm rs2 rs1 f3 op := by
  simpa only [immB_encB_eq_and, encB_rs2, encB_rs1, encB_funct3] using
    encB_immB (encB_opcode rs2 rs1 f3 op imm)

theorem encS_and_mask : encS (imm &&& 0x00000FFF#32) rs2 rs1 f3 op = encS imm rs2 rs1 f3 op := by
  simpa only [immS_encS_eq_and, encS_rs2, encS_rs1, encS_funct3] using
    encS_immS (encS_opcode rs2 rs1 f3 op imm)

end

/-! ## On the format's range the mask drops nothing -/

/-- A mask of `len` bits from bit `lo` keeps a value that has no bit below or above them. -/
theorem and_sliceMask_eq_self {v : Word} (lo len : Nat) (h32 : lo + len ≤ 32)
    (hlow : v.toNat % 2 ^ lo = 0) (hhigh : v.toNat < 2 ^ (lo + len)) :
    v &&& ((BitVec.allOnes len).setWidth 32 <<< lo) = v := by
  have hslice : v.toNat / 2 ^ lo % 2 ^ len = v.toNat / 2 ^ lo :=
    Nat.mod_eq_of_lt (Nat.div_lt_of_lt_mul (by rwa [← Nat.pow_add]))
  apply BitVec.eq_of_toNat_eq
  rw [Machine.and_sliceMask, BitVec.toNat_shiftLeft, BitVec.toNat_setWidth_of_le (by omega),
    toNat_slice, hslice, Nat.shiftLeft_eq, Nat.div_mul_cancel (Nat.dvd_of_mod_eq_zero hlow),
    Nat.mod_eq_of_lt v.isLt]

section
variable {imm : Word}

theorem and_maskU_eq_self (h : imm.toNat % 0x1000 = 0) : imm &&& 0xFFFFF000#32 = imm :=
  and_sliceMask_eq_self 12 20 (by omega) h imm.isLt

theorem and_maskJ_eq_self (heven : imm.toNat % 2 = 0) (hle : imm.toNat ≤ 0x1FFFFE) :
    imm &&& 0x001FFFFE#32 = imm :=
  and_sliceMask_eq_self 1 20 (by omega) heven (by omega)

theorem and_maskB_eq_self (heven : imm.toNat % 2 = 0) (hle : imm.toNat ≤ 0x1FFE) :
    imm &&& 0x00001FFE#32 = imm :=
  and_sliceMask_eq_self 1 12 (by omega) heven (by omega)

theorem and_mask12_eq_self (hle : imm.toNat ≤ 0xFFF) : imm &&& 0x00000FFF#32 = imm :=
  and_sliceMask_eq_self 0 12 (by omega) (Nat.mod_one _) (by omega)

end

/-- Settles O6: reconstructing what was encoded masks the immediate, and the encoder undoes each
reconstruction. -/
theorem immediateEncodersRoundTrip : Obligations.ImmediateEncodersRoundTrip := by
  refine ⟨fun imm rd op => ⟨fun h => ?u, fun ⟨heven, hle⟩ => ?j, ?_, ?_⟩,
    fun imm rs2 rs1 rd f3 op => ⟨fun hle => ?i, fun ⟨heven, hle⟩ => ?b, fun hle => ?s, ?_, ?_, ?_⟩,
    fun w => ⟨encU_immU rfl, encJ_immJ rfl, encI_immI rfl, encB_immB rfl, encS_immS rfl⟩⟩
  case u => rw [immU_encU_eq_and, and_maskU_eq_self h]
  case j => rw [immJ_encJ_eq_and, and_maskJ_eq_self heven hle]
  case i => rw [immI_encI_eq_and, and_mask12_eq_self hle]
  case b => rw [immB_encB_eq_and, and_maskB_eq_self heven hle]
  case s => rw [immS_encS_eq_and, and_mask12_eq_self hle]
  · exact (encU_and_mask ..).symm
  · exact (encJ_and_mask ..).symm
  · exact (encI_and_mask ..).symm
  · exact (encB_and_mask ..).symm
  · exact (encS_and_mask ..).symm

end Sys2Proof
end

section
/-! Laws the spec derives from its own rules, on the block: the opcodes of 32-bit format (R142, R144),
the fields of a word (R154), the ranges of the immediate (R180), and what the fields and the immediate
of one word have to do with each other (R184.6, R226, R227). -/

namespace Sys2Proof.Machine

/-! ## The opcodes of 32-bit format -/

/-- R142's enumeration; the test sees nothing else of the word. -/
theorem is32BitFormat_iff_low5 (w : Word) : is32BitFormat w = true ↔
    w.extractLsb' 0 5 ∈ [0b00011#5, 0b00111#5, 0b01011#5, 0b01111#5, 0b10011#5, 0b10111#5,
      0b11011#5] := by
  have hlow5 : is32BitFormat w = is32BitFormat ((w.extractLsb' 0 5).setWidth 32) :=
    is32BitFormat_congr (by
      rw [BitVec.extractLsb'_setWidth_of_le (by omega), BitVec.extractLsb'_eq_self])
  rw [hlow5]
  generalize w.extractLsb' 0 5 = low
  revert low
  decide

/-- Settles O8: `success` is the length class. -/
theorem successForExactlySevenLowPatterns : Obligations.SuccessForExactlySevenLowPatterns :=
  fun w => by rw [decodeFields_success, is32BitFormat_iff_low5]

/-- R96: the 28 opcodes of 32-bit format. -/
theorem opcode_mem_of_is32BitFormat : ∀ op : Opcode, is32BitFormat (op.setWidth 32) = true →
    op ∈ [0b0110111#7, 0b0010111#7, 0b1101111#7, 0b1100111#7, 0b0000011#7,
      0b1100011#7, 0b0100011#7, 0b0110011#7, 0b0010011#7,
      0b0000111#7, 0b0001011#7, 0b0001111#7, 0b0011011#7, 0b0100111#7,
      0b0101011#7, 0b0101111#7, 0b0111011#7, 0b1000011#7, 0b1000111#7, 0b1001011#7,
      0b1001111#7, 0b1010011#7, 0b1010111#7, 0b1011011#7, 0b1101011#7, 0b1110011#7,
      0b1110111#7, 0b1111011#7] := by
  decide

theorem opcode_ne_zero_of_is32BitFormat {w : Word} (h : is32BitFormat w = true) :
    w.extractLsb' 0 7 ≠ 0 := by
  intro hop
  rw [is32BitFormat_of_opcode hop] at h
  exact absurd h (by decide)

/-- Settles O11: the opcode of a successful word is its low seven bits, which are of 32-bit format as
the word is. -/
theorem successfulOpcodesAreThe28 : Obligations.SuccessfulOpcodesAreThe28 := by
  intro w h
  rw [decodeFields_success] at h
  rw [decodeFields_of_success h]
  refine ⟨?low2, opcode_ne_zero_of_is32BitFormat h, opcode_mem_of_is32BitFormat _ ?format⟩
  case low2 => exact (low2_of_opcode w).trans ((is32BitFormat_iff w).mp h).1
  case format => rwa [← is32BitFormat_of_opcode rfl]

/-! ## The fields of a word (R154) -/

theorem decodeFields_opcode_ne_zero_iff (w : Word) :
    (decodeFields w).opcode ≠ 0 ↔ is32BitFormat w = true := by
  cases h : is32BitFormat w with
  | true => simpa [decodeFields_of_success h] using opcode_ne_zero_of_is32BitFormat h
  | false => simp [decodeFields_of_failure h, noFields]

/-- Settles O12: slices tile the word, a failed opcode is the zeroed one, and the low five bits decide
whether the outputs are zeroed. -/
theorem fieldsReassembleTheWord : Obligations.FieldsReassembleTheWord := by
  intro w
  simp only [decodeFields_success]
  refine ⟨fun h => ?_, (decodeFields_opcode_ne_zero_iff w).symm, fun v hlow h => ?_⟩
  · rw [decodeFields_of_success h]
    exact encR_slices rfl
  · rw [decodeFields_of_failure h, decodeFields_of_failure ((is32BitFormat_congr hlow).trans h)]

/-! ## The ranges of the immediate (R180) -/

theorem immI_le (w : Word) : (immI w).toNat ≤ 0xFFF := by
  rw [immI_toNat]
  omega

theorem immS_le (w : Word) : (immS w).toNat ≤ 0xFFF := by
  rw [immS_toNat]
  omega

/-- Settles O15: each opcode's reconstruction has its format's range. -/
theorem immediateRanges : Obligations.ImmediateRanges := by
  refine fun w op => ⟨?u, ?j, ?b, ?is, fun h => decodeImmediate_of_not_trigger w h⟩
  case u => rintro (rfl | rfl) <;> exact ⟨_, immU_toNat w⟩
  case j => rintro rfl; exact ⟨immJ_even w, immJ_le w⟩
  case b => rintro rfl; exact ⟨immB_even w, immB_le w⟩
  case is =>
    rintro (rfl | rfl | rfl)
    · exact immI_le w
    · exact immI_le w
    · exact immS_le w

/-! ## The zeroed opcode and the immediate (R179, R226) -/

theorem is32BitFormat_of_trigger {w : Word}
    (h : w.extractLsb' 0 7 ∈ [0b0110111#7, 0b0010111#7, 0b1101111#7, 0b1100111#7, 0b0000011#7,
      0b1100011#7, 0b0100011#7]) : is32BitFormat w = true := by
  rw [is32BitFormat_of_opcode rfl]
  generalize w.extractLsb' 0 7 = op at h ⊢
  revert op
  decide

/-- Settles O17: a word that fails has no trigger in instr[6:0], so zeroing it selects nothing else. -/
theorem zeroedOpcodeHidesNoImmediate : Obligations.ZeroedOpcodeHidesNoImmediate := by
  intro w
  refine ⟨fun h => ?trigger, ?same, fun h => ?failure⟩
  case trigger => rw [decodeFields_success, is32BitFormat_of_trigger h]
  case same =>
    cases h : is32BitFormat w with
    | true => rw [decodeFields_of_success h]
    | false =>
      rw [decodeFields_of_failure h, decodeImmediate_of_not_trigger w (op := w.extractLsb' 0 7)
        fun htrigger => absurd ((is32BitFormat_of_trigger htrigger).symm.trans h) nofun]
      rfl
  case failure =>
    have hfail : is32BitFormat w = false := (decodeFields_success w).symm.trans h
    rw [← portsNot32_eq_decodeBlock hfail]
    rfl

/-! ## The fields that carry the immediate (R227)

Every word is, for each format, the encoding of its own reconstruction; and that encoding is R's with
bits of the immediate for fields. -/

/-- The tiling of R82, read field by field. -/
theorem slices_of_encR_eq {w : Word} {f7 : Funct7} {rs2 rs1 : RegIndex} {f3 : Funct3} {rd : RegIndex}
    {op : Opcode} (h : encR f7 rs2 rs1 f3 rd op = w) :
    w.extractLsb' 12 3 = f3 ∧ w.extractLsb' 15 5 = rs1 ∧ w.extractLsb' 20 5 = rs2 ∧
      w.extractLsb' 25 7 = f7 ∧ w.extractLsb' 7 5 = rd := by
  subst h
  exact ⟨encR_funct3 .., encR_rs1 .., encR_rs2 .., encR_funct7 .., encR_rd ..⟩

section
variable (w : Word)

theorem slices_show_immU :
    w.extractLsb' 12 3 = (immU w).extractLsb' 12 3 ∧ w.extractLsb' 15 5 = (immU w).extractLsb' 15 5 ∧
      w.extractLsb' 20 5 = (immU w).extractLsb' 20 5 ∧
      w.extractLsb' 25 7 = (immU w).extractLsb' 25 7 := by
  obtain ⟨hfunct3, hrs1, hrs2, hfunct7, -⟩ :=
    slices_of_encR_eq ((encU_eq_encR ..).symm.trans (encU_immU (w := w) rfl))
  exact ⟨hfunct3, hrs1, hrs2, hfunct7⟩

theorem slices_show_immJ :
    w.extractLsb' 12 3 = (immJ w).extractLsb' 12 3 ∧ w.extractLsb' 15 5 = (immJ w).extractLsb' 15 5 ∧
      w.extractLsb' 20 5 = (immJ w).extractLsb' 1 4 ++ (immJ w).extractLsb' 11 1 ∧
      w.extractLsb' 25 7 = (immJ w).extractLsb' 20 1 ++ (immJ w).extractLsb' 5 6 := by
  obtain ⟨hfunct3, hrs1, hrs2, hfunct7, -⟩ :=
    slices_of_encR_eq ((encJ_eq_encR ..).symm.trans (encJ_immJ (w := w) rfl))
  exact ⟨hfunct3, hrs1, hrs2, hfunct7⟩

theorem slices_show_immI :
    w.extractLsb' 20 5 = (immI w).extractLsb' 0 5 ∧ w.extractLsb' 25 7 = (immI w).extractLsb' 5 7 ∧
      immI w = (w.extractLsb' 25 7 ++ w.extractLsb' 20 5).setWidth 32 := by
  obtain ⟨-, -, hrs2, hfunct7, -⟩ :=
    slices_of_encR_eq ((encI_eq_encR ..).symm.trans (encI_immI (w := w) rfl))
  have hbits31_20 : w.extractLsb' 25 7 ++ w.extractLsb' 20 5 = w.extractLsb' 20 12 :=
    BitVec.extractLsb'_append_extractLsb'_eq_extractLsb' rfl
  exact ⟨hrs2, hfunct7, (immI_eq_setWidth w).trans (congrArg _ hbits31_20.symm)⟩

theorem slices_show_immB :
    w.extractLsb' 7 5 = (immB w).extractLsb' 1 4 ++ (immB w).extractLsb' 11 1 ∧
      w.extractLsb' 25 7 = (immB w).extractLsb' 12 1 ++ (immB w).extractLsb' 5 6 := by
  obtain ⟨-, -, -, hfunct7, hrd⟩ :=
    slices_of_encR_eq ((encB_eq_encR ..).symm.trans (encB_immB (w := w) rfl))
  exact ⟨hrd, hfunct7⟩

theorem slices_show_immS :
    w.extractLsb' 7 5 = (immS w).extractLsb' 0 5 ∧ w.extractLsb' 25 7 = (immS w).extractLsb' 5 7 ∧
      immS w = (w.extractLsb' 25 7 ++ w.extractLsb' 7 5).setWidth 32 := by
  obtain ⟨-, -, -, hfunct7, hrd⟩ :=
    slices_of_encR_eq ((encS_eq_encR ..).symm.trans (encS_immS (w := w) rfl))
  exact ⟨hrd, hfunct7, immS_eq_setWidth w⟩

end

/-- Settles O18: under a trigger the block's fields are the word's slices, and its immediate is the
reconstruction whose bits these slices show. -/
theorem fieldsShowImmediateBits : Obligations.FieldsShowImmediateBits := by
  refine fun w => ⟨?u, ?j, ?i, fun hop => ?b, fun hop => ?s⟩
  case u =>
    rintro (hop | hop) <;> rw [decodeBlock_of_opcode hop rfl] <;> exact slices_show_immU w
  case j =>
    intro hop
    rw [decodeBlock_of_opcode hop rfl]
    exact slices_show_immJ w
  case i =>
    rintro (hop | hop) <;> rw [decodeBlock_of_opcode hop rfl] <;> exact slices_show_immI w
  case b =>
    rw [decodeBlock_of_opcode hop rfl]
    exact slices_show_immB w
  case s =>
    rw [decodeBlock_of_opcode hop rfl]
    exact slices_show_immS w

end Sys2Proof.Machine
end
